-- ==== Sys2Proof/Word.lean ====
section
/-! DEFINITION. The word types of the device block: names for the widths of `spec/00_scope.md` R3. -/

namespace Sys2Proof

/-- One byte of RAM, ROM, `FONT_ROM` or a `RAW` blob (R43). -/
abbrev Byte := BitVec 8

/-- A 16-bit register, command word, interrupt message or cell (R3: `REG_W`, `MSG_W`, `CMD_W`). -/
abbrev Word := BitVec 16

/-- A packed KeyEvent (R13, `EVT_W`). -/
abbrev Event := BitVec 32

/-- A mapped pointer (R16, `PTR_W`). -/
abbrev Pointer := BitVec 32

/-- A 32-bit colour (R26). -/
abbrev Pixel := BitVec 32

end Sys2Proof
end

