-- ==== Sys2Proof/Syntax.lean ====
section
/-! DEFINITION. The operations of the device block (`Instr`, from `spec/opcode_table.json`), the snapshot value some
of them carry, and the form in which the environment presents operations at the ports (`Request`, `PortLines`,
`Input`). -/

namespace Sys2Proof

/-- The two devices of the block (R1): `K` and `T` of the spec's notation. -/
inductive Device where
  | kbd
  | tda
  deriving DecidableEq, Repr

/-- A typed property value of a snapshot (R27). -/
inductive PropValue where
  /-- `INT`: an unsigned number. R27 says "of at least 32 bits"; the model puts no upper bound (log 10). -/
  | int (v : Nat)
  /-- `BOOL`: one bit. -/
  | bool (b : Bool)
  /-- `RAW`: a finite list of bytes. -/
  | raw (bytes : List Byte)
  deriving DecidableEq, Repr

/-- A DeviceSnapshot (R27): the ordered register values, and the properties by name. -/
structure Snapshot where
  regs : List Word
  props : List (String × PropValue)
  deriving DecidableEq, Repr

/-- The operations, one constructor for each mnemonic and device of `spec/opcode_table.json`. The rows `UNRECOGNIZED`
of one device tile the words that are no command; they are one constructor with its code (R63, log 9). -/
inductive Instr where
  -- format CMD_K
  /-- `CLR_BUFFER`, keyboard (R91). -/
  | kClrBuffer
  /-- `PULL_KEY`, keyboard (R92). -/
  | kPullKey
  /-- `PUSH_KEY`, keyboard (R93). -/
  | kPushKey
  /-- `SET_INT`, keyboard (R94). -/
  | kSetInt
  /-- `UNRECOGNIZED`, keyboard: a command word from `0x0004` to `0xFFFF` (R95). -/
  | kUnrecognized (code : Word)
  -- format CMD_T
  /-- `MAP_BUFFER`, TDA (R101). -/
  | tMapBuffer
  /-- `MAP_FONT`, TDA (R102). -/
  | tMapFont
  /-- `SET_INT`, TDA (R103). -/
  | tSetInt
  /-- `UNRECOGNIZED`, TDA: a command word from `0x0003` to `0xFFFF` (R104). -/
  | tUnrecognized (code : Word)
  -- format SLOT_K
  /-- `WR.CMD`, keyboard: `SendCMD(wdata)` (R83). -/
  | kWrCmd (wdata : Word)
  /-- `RD.CMD`, keyboard (R83). -/
  | kRdCmd
  /-- `WR.A`, keyboard (R80). -/
  | kWrA (wdata : Word)
  /-- `RD.A`, keyboard (R82). -/
  | kRdA
  /-- `WR.B`, keyboard (R80). -/
  | kWrB (wdata : Word)
  /-- `RD.B`, keyboard (R82). -/
  | kRdB
  /-- `WR.C`, keyboard (R80). -/
  | kWrC (wdata : Word)
  /-- `RD.C`, keyboard (R82). -/
  | kRdC
  /-- `WR.D`, keyboard: a slot without storage (R65, R80). -/
  | kWrD (wdata : Word)
  /-- `RD.D`, keyboard: a slot without storage (R65, R82). -/
  | kRdD
  /-- `WR.E`, keyboard: a slot without storage (R65, R80). -/
  | kWrE (wdata : Word)
  /-- `RD.E`, keyboard: a slot without storage (R65, R82). -/
  | kRdE
  /-- `WR.RESERVED`, keyboard: slot 6 or 7 (R84). -/
  | kWrReserved (slot : BitVec 3) (wdata : Word)
  /-- `RD.RESERVED`, keyboard: slot 6 or 7 (R84). -/
  | kRdReserved (slot : BitVec 3)
  -- format SLOT_T
  /-- `WR.CMD`, TDA: `SendCMD(wdata)` (R83). -/
  | tWrCmd (wdata : Word)
  /-- `RD.CMD`, TDA (R83). -/
  | tRdCmd
  /-- `WR.A`, TDA (R80). -/
  | tWrA (wdata : Word)
  /-- `RD.A`, TDA (R82). -/
  | tRdA
  /-- `WR.B`, TDA (R80). -/
  | tWrB (wdata : Word)
  /-- `RD.B`, TDA (R82). -/
  | tRdB
  /-- `WR.C`, TDA: a slot without storage (R65, R80). -/
  | tWrC (wdata : Word)
  /-- `RD.C`, TDA: a slot without storage (R65, R82). -/
  | tRdC
  /-- `WR.D`, TDA (R80). -/
  | tWrD (wdata : Word)
  /-- `RD.D`, TDA (R82). -/
  | tRdD
  /-- `WR.E`, TDA: the register and the two flags (R81). -/
  | tWrE (wdata : Word)
  /-- `RD.E`, TDA (R82). -/
  | tRdE
  /-- `WR.RESERVED`, TDA: slot 6 or 7 (R84). -/
  | tWrReserved (slot : BitVec 3) (wdata : Word)
  /-- `RD.RESERVED`, TDA: slot 6 or 7 (R84). -/
  | tRdReserved (slot : BitVec 3)
  -- format STROBE_K
  /-- `RESET`, keyboard (R180). -/
  | kReset
  /-- `RAISE`, keyboard: `RaiseInt` (R151). -/
  | kRaise
  /-- `POLL`, keyboard: `DoesInterrupt` (R152). -/
  | kPoll
  /-- `IACK`, keyboard (R153). -/
  | kIack
  /-- `ISSYNC`, keyboard: `IsSyncDev` (R105). -/
  | kIsSync
  /-- `GET`, keyboard: `GetState` (R131). -/
  | kGet
  /-- `SET`, keyboard: `SetState(snap)` (R133, R134, R136). -/
  | kSet (snap : Snapshot)
  -- format STROBE_T
  /-- `RESET`, TDA (R181). -/
  | tReset
  /-- `RAISE`, TDA: `RaiseInt` (R151). -/
  | tRaise
  /-- `POLL`, TDA: `DoesInterrupt` (R152). -/
  | tPoll
  /-- `IACK`, TDA (R153). -/
  | tIack
  /-- `ISSYNC`, TDA: `IsSyncDev` (R105). -/
  | tIsSync
  /-- `GET`, TDA: `GetState` (R132). -/
  | tGet
  /-- `SET`, TDA: `SetState(snap)` (R133, R135, R136). -/
  | tSet (snap : Snapshot)
  /-- `FRAME`: `Capture` then `Render` (R122). -/
  | tFrame
  /-- `FRAME.SWAP`: `Capture` then `RenderSwapped` (R122). -/
  | tFrameSwap
  deriving DecidableEq, Repr

/-- The strobes and readable outputs of one device (R68), each named by its signal. -/
inductive Strobe where
  /-- `rst`: `Reset`. -/
  | rst
  /-- `int_set`: `RaiseInt`. -/
  | intSet
  /-- A read of the outputs `irq`, `irq_msg`: `DoesInterrupt`. -/
  | irq
  /-- `iack`: `IACK`. -/
  | iack
  /-- A read of the output `sync_dev`: `IsSyncDev`. -/
  | syncDev
  /-- `snap_get`: `GetState`. -/
  | snapGet
  /-- `snap_set`, with the snapshot presented beside it: `SetState(snap)`. -/
  | snapSet (snap : Snapshot)
  /-- The pair `frame_req`, `frame_swap` (TDA only): the frame. -/
  | frame
  deriving DecidableEq, Repr

/-- One operation as it stands at a port, in the formats of `spec/opcode_table.json`. -/
inductive Request where
  /-- Formats `CMD_K`, `CMD_T`: a command word given to `SendCMD` (R60). -/
  | cmd (dev : Device) (code : Word)
  /-- Formats `SLOT_K`, `SLOT_T`: a bus transaction. `pattern` holds `{we, slot[2:0]}` in bits 3:0 and zeros above,
  `wdata` the data word (R64). -/
  | bus (dev : Device) (pattern : Byte) (wdata : Word)
  /-- Formats `STROBE_K`, `STROBE_T`: `pattern` is the row's pattern of bits, `1` for a one-bit strobe, and
  `{frame_req, frame_swap}` for the frame (R68). -/
  | strobe (dev : Device) (line : Strobe) (pattern : BitVec 2)
  deriving DecidableEq, Repr

/-- Why a request is no operation of the block. -/
inductive DecodeError where
  /-- The pattern of a bus transaction has a bit set above `{we, slot}` (R64: four bits). -/
  | patternTooWide
  /-- The strobe is not active: its pattern is not one of the table's (R68). -/
  | strobeInactive
  /-- The keyboard has no frame strobe (R68: "TDA only"). -/
  | noFrameOnKeyboard
  /-- A property name stands twice in the snapshot (R27: "unique per snapshot"). -/
  | repeatedProperty
  deriving DecidableEq, Repr

/-- The input lines of one device as sampled in one clock step (R68), for R157. `irqRead` and `syncRead` say that the
environment reads those outputs in this step. The frame lines are read by nobody on the keyboard. -/
structure PortLines where
  rst : Bool := false
  busEn : Bool := false
  busWe : Bool := false
  busSlot : BitVec 3 := 0
  busWdata : Word := 0
  intSet : Bool := false
  irqRead : Bool := false
  iack : Bool := false
  syncRead : Bool := false
  snapGet : Bool := false
  snapSet : Option Snapshot := none
  frameReq : Bool := false
  frameSwap : Bool := false
  deriving DecidableEq, Repr

/-- One move of the environment (R6; log 1). -/
inductive Input where
  /-- One operation presented alone. -/
  | request (r : Request)
  /-- Several strobes of one device sampled in one clock step (R157). -/
  | sample (dev : Device) (lines : PortLines)
  /-- The bus master writes `wdata` (`we`) or reads at a bus address, which `REG_MAP` turns into a slot of a device (R3,
  R54; log 15). -/
  | busAccess (addr : Nat) (we : Bool) (wdata : Word)
  /-- The CPU writes one byte of RAM between operations of the block (R41, R52; log 5). -/
  | cpuWrite (index : Nat) (value : Byte)
  deriving DecidableEq, Repr

end Sys2Proof
end

