-- ==== Sys2Proof/WellFormed.lean ====
section
/-! DEFINITION. Which terms of the syntax stand for operations of the spec. -/

namespace Sys2Proof

/-- Property names are "unique per snapshot" (R27). -/
def Snapshot.wellFormed (s : Snapshot) : Bool :=
  decide (s.props.map (·.1)).Nodup

/-- The reserved slots are 6 and 7 (R64). -/
def reservedSlot (slot : BitVec 3) : Bool :=
  slot == 6#3 || slot == 7#3

/-- What the types leave open: an unrecognized code is no command of its device (R61, R62), a reserved slot is 6 or 7
(R64), a snapshot has unique property names (R27). -/
def Instr.wellFormed : Instr → Bool
  | .kUnrecognized code => decide (4 ≤ code.toNat)
  | .tUnrecognized code => decide (3 ≤ code.toNat)
  | .kWrReserved slot _ => reservedSlot slot
  | .kRdReserved slot => reservedSlot slot
  | .tWrReserved slot _ => reservedSlot slot
  | .tRdReserved slot => reservedSlot slot
  | .kSet snap => snap.wellFormed
  | .tSet snap => snap.wellFormed
  | .kClrBuffer | .kPullKey | .kPushKey | .kSetInt => true
  | .tMapBuffer | .tMapFont | .tSetInt => true
  | .kWrCmd _ | .kWrA _ | .kWrB _ | .kWrC _ | .kWrD _ | .kWrE _ => true
  | .kRdCmd | .kRdA | .kRdB | .kRdC | .kRdD | .kRdE => true
  | .tWrCmd _ | .tWrA _ | .tWrB _ | .tWrC _ | .tWrD _ | .tWrE _ => true
  | .tRdCmd | .tRdA | .tRdB | .tRdC | .tRdD | .tRdE => true
  | .kReset | .kRaise | .kPoll | .kIack | .kIsSync | .kGet => true
  | .tReset | .tRaise | .tPoll | .tIack | .tIsSync | .tGet => true
  | .tFrame | .tFrameSwap => true

/-- The device an operation runs on. -/
def Instr.device : Instr → Device
  | .kClrBuffer | .kPullKey | .kPushKey | .kSetInt | .kUnrecognized _ => .kbd
  | .kWrCmd _ | .kWrA _ | .kWrB _ | .kWrC _ | .kWrD _ | .kWrE _ | .kWrReserved _ _ => .kbd
  | .kRdCmd | .kRdA | .kRdB | .kRdC | .kRdD | .kRdE | .kRdReserved _ => .kbd
  | .kReset | .kRaise | .kPoll | .kIack | .kIsSync | .kGet | .kSet _ => .kbd
  | .tMapBuffer | .tMapFont | .tSetInt | .tUnrecognized _ => .tda
  | .tWrCmd _ | .tWrA _ | .tWrB _ | .tWrC _ | .tWrD _ | .tWrE _ | .tWrReserved _ _ => .tda
  | .tRdCmd | .tRdA | .tRdB | .tRdC | .tRdD | .tRdE | .tRdReserved _ => .tda
  | .tReset | .tRaise | .tPoll | .tIack | .tIsSync | .tGet | .tSet _ => .tda
  | .tFrame | .tFrameSwap => .tda

end Sys2Proof
end

