-- ==== Sys2Proof/Decode.lean ====
section
/-! DEFINITION. From a request at a port to the operation it selects (R60 to R69), total, rejecting by name; and the
encoder, from the same tables. -/

namespace Sys2Proof

/-- The keyboard's command map (R61). -/
def decodeKbdCommand (code : Word) : Instr :=
  match code.toNat with
  | 0x0000 => .kClrBuffer
  | 0x0001 => .kPullKey
  | 0x0002 => .kPushKey
  | 0x0003 => .kSetInt
  | _ => .kUnrecognized code

/-- The TDA's command map (R62). -/
def decodeTdaCommand (code : Word) : Instr :=
  match code.toNat with
  | 0x0000 => .tMapBuffer
  | 0x0001 => .tMapFont
  | 0x0002 => .tSetInt
  | _ => .tUnrecognized code

/-- The keyboard's bus transactions by the pattern `{we, slot}` (R64). -/
def decodeKbdBus (pattern : Byte) (wdata : Word) : Except DecodeError Instr :=
  match pattern.toNat with
  | 0x0 => .ok .kRdCmd
  | 0x1 => .ok .kRdA
  | 0x2 => .ok .kRdB
  | 0x3 => .ok .kRdC
  | 0x4 => .ok .kRdD
  | 0x5 => .ok .kRdE
  | 0x6 => .ok (.kRdReserved 6#3)
  | 0x7 => .ok (.kRdReserved 7#3)
  | 0x8 => .ok (.kWrCmd wdata)
  | 0x9 => .ok (.kWrA wdata)
  | 0xA => .ok (.kWrB wdata)
  | 0xB => .ok (.kWrC wdata)
  | 0xC => .ok (.kWrD wdata)
  | 0xD => .ok (.kWrE wdata)
  | 0xE => .ok (.kWrReserved 6#3 wdata)
  | 0xF => .ok (.kWrReserved 7#3 wdata)
  | _ => .error .patternTooWide

/-- The TDA's bus transactions by the pattern `{we, slot}` (R64). -/
def decodeTdaBus (pattern : Byte) (wdata : Word) : Except DecodeError Instr :=
  match pattern.toNat with
  | 0x0 => .ok .tRdCmd
  | 0x1 => .ok .tRdA
  | 0x2 => .ok .tRdB
  | 0x3 => .ok .tRdC
  | 0x4 => .ok .tRdD
  | 0x5 => .ok .tRdE
  | 0x6 => .ok (.tRdReserved 6#3)
  | 0x7 => .ok (.tRdReserved 7#3)
  | 0x8 => .ok (.tWrCmd wdata)
  | 0x9 => .ok (.tWrA wdata)
  | 0xA => .ok (.tWrB wdata)
  | 0xB => .ok (.tWrC wdata)
  | 0xC => .ok (.tWrD wdata)
  | 0xD => .ok (.tWrE wdata)
  | 0xE => .ok (.tWrReserved 6#3 wdata)
  | 0xF => .ok (.tWrReserved 7#3 wdata)
  | _ => .error .patternTooWide

/-- A one-bit strobe selects its operation when it is `1` (R68). -/
def whenActive (pattern : BitVec 2) (i : Instr) : Except DecodeError Instr :=
  if pattern = 1#2 then .ok i else .error .strobeInactive

/-- A snapshot is presented with unique property names (R27). -/
def checkSnapshot (snap : Snapshot) (r : Except DecodeError Instr) : Except DecodeError Instr :=
  if snap.wellFormed then r else .error .repeatedProperty

/-- The keyboard's strobes (R68, rows of format `STROBE_K`). -/
def decodeKbdStrobe (line : Strobe) (pattern : BitVec 2) : Except DecodeError Instr :=
  match line with
  | .rst => whenActive pattern .kReset
  | .intSet => whenActive pattern .kRaise
  | .irq => whenActive pattern .kPoll
  | .iack => whenActive pattern .kIack
  | .syncDev => whenActive pattern .kIsSync
  | .snapGet => whenActive pattern .kGet
  | .snapSet snap => checkSnapshot snap (whenActive pattern (.kSet snap))
  | .frame => .error .noFrameOnKeyboard

/-- The TDA's strobes (R68, rows of format `STROBE_T`); the frame's pattern is `{frame_req, frame_swap}`. -/
def decodeTdaStrobe (line : Strobe) (pattern : BitVec 2) : Except DecodeError Instr :=
  match line with
  | .rst => whenActive pattern .tReset
  | .intSet => whenActive pattern .tRaise
  | .irq => whenActive pattern .tPoll
  | .iack => whenActive pattern .tIack
  | .syncDev => whenActive pattern .tIsSync
  | .snapGet => whenActive pattern .tGet
  | .snapSet snap => checkSnapshot snap (whenActive pattern (.tSet snap))
  | .frame =>
    match pattern.toNat with
    | 2 => .ok .tFrame
    | 3 => .ok .tFrameSwap
    | _ => .error .strobeInactive

/-- The operation a request selects: "a decoder takes the device as well as the word" (R60). -/
def decode : Request → Except DecodeError Instr
  | .cmd .kbd code => .ok (decodeKbdCommand code)
  | .cmd .tda code => .ok (decodeTdaCommand code)
  | .bus .kbd pattern wdata => decodeKbdBus pattern wdata
  | .bus .tda pattern wdata => decodeTdaBus pattern wdata
  | .strobe .kbd line pattern => decodeKbdStrobe line pattern
  | .strobe .tda line pattern => decodeTdaStrobe line pattern

/-- The request that an instruction of `spec/opcode_table.json`, given as `nbits` bits `w`, is on the device `dev`:
16 bits are a command word (formats `CMD_K`, `CMD_T`), 8 bits the byte that holds `{we, slot}` (formats `SLOT_K`,
`SLOT_T`), whose data word is 0. The table numbers no bits of the strobe rows (log 7). -/
def tableRequestFor (dev : Device) (nbits w : Nat) : Option Request :=
  if w < 2 ^ nbits then
    match nbits with
    | 16 => some (.cmd dev (BitVec.ofNat 16 w))
    | 8 => some (.bus dev (BitVec.ofNat 8 w) 0#16)
    | _ => none
  else none

/-- `tableRequestFor` on the keyboard: the table's bits name no device, and the device-select bit above them, like
every bit above `nbits`, is 0, the keyboard (log 7). -/
def tableRequest (nbits w : Nat) : Option Request :=
  tableRequestFor .kbd nbits w

/-- The instruction of an opcode-table word presented to `dev`. -/
def decodeTableWordFor (dev : Device) (nbits w : Nat) : Option Instr :=
  match tableRequestFor dev nbits w with
  | some r =>
    match decode r with
    | .ok i => some i
    | .error _ => none
  | none => none

/-- The instruction the decoder reads from an opcode-table word, numbered as the table numbers its bits; the device
is the keyboard (log 7). -/
def decodeTableWord (nbits w : Nat) : Option Instr :=
  decodeTableWordFor .kbd nbits w

/-- A write transaction on `slot` (R64, R70: `(1, slot, v)`). -/
def busWrite (dev : Device) (slot : BitVec 3) (v : Word) : Request :=
  .bus dev (8#8 ||| slot.setWidth 8) v

/-- A read transaction on `slot` (R64, R70: `(0, slot, -)`), its unused data word 0. -/
def busRead (dev : Device) (slot : BitVec 3) : Request :=
  .bus dev (slot.setWidth 8) 0#16

/-- A one-bit strobe, active. -/
def active (dev : Device) (line : Strobe) : Request :=
  .strobe dev line 1#2

/-- The request of an instruction: its words as R61, R62, R64, R68 and R70 give them. -/
def encode : Instr → Request
  | .kClrBuffer => .cmd .kbd 0x0000#16
  | .kPullKey => .cmd .kbd 0x0001#16
  | .kPushKey => .cmd .kbd 0x0002#16
  | .kSetInt => .cmd .kbd 0x0003#16
  | .kUnrecognized code => .cmd .kbd code
  | .tMapBuffer => .cmd .tda 0x0000#16
  | .tMapFont => .cmd .tda 0x0001#16
  | .tSetInt => .cmd .tda 0x0002#16
  | .tUnrecognized code => .cmd .tda code
  | .kWrCmd v => busWrite .kbd 0#3 v
  | .kWrA v => busWrite .kbd 1#3 v
  | .kWrB v => busWrite .kbd 2#3 v
  | .kWrC v => busWrite .kbd 3#3 v
  | .kWrD v => busWrite .kbd 4#3 v
  | .kWrE v => busWrite .kbd 5#3 v
  | .kWrReserved slot v => busWrite .kbd slot v
  | .kRdCmd => busRead .kbd 0#3
  | .kRdA => busRead .kbd 1#3
  | .kRdB => busRead .kbd 2#3
  | .kRdC => busRead .kbd 3#3
  | .kRdD => busRead .kbd 4#3
  | .kRdE => busRead .kbd 5#3
  | .kRdReserved slot => busRead .kbd slot
  | .tWrCmd v => busWrite .tda 0#3 v
  | .tWrA v => busWrite .tda 1#3 v
  | .tWrB v => busWrite .tda 2#3 v
  | .tWrC v => busWrite .tda 3#3 v
  | .tWrD v => busWrite .tda 4#3 v
  | .tWrE v => busWrite .tda 5#3 v
  | .tWrReserved slot v => busWrite .tda slot v
  | .tRdCmd => busRead .tda 0#3
  | .tRdA => busRead .tda 1#3
  | .tRdB => busRead .tda 2#3
  | .tRdC => busRead .tda 3#3
  | .tRdD => busRead .tda 4#3
  | .tRdE => busRead .tda 5#3
  | .tRdReserved slot => busRead .tda slot
  | .kReset => active .kbd .rst
  | .kRaise => active .kbd .intSet
  | .kPoll => active .kbd .irq
  | .kIack => active .kbd .iack
  | .kIsSync => active .kbd .syncDev
  | .kGet => active .kbd .snapGet
  | .kSet snap => active .kbd (.snapSet snap)
  | .tReset => active .tda .rst
  | .tRaise => active .tda .intSet
  | .tPoll => active .tda .irq
  | .tIack => active .tda .iack
  | .tIsSync => active .tda .syncDev
  | .tGet => active .tda .snapGet
  | .tSet snap => active .tda (.snapSet snap)
  | .tFrame => .strobe .tda .frame 0b10#2
  | .tFrameSwap => .strobe .tda .frame 0b11#2

end Sys2Proof
end

