-- ==== Sys2Proof/Config.lean ====
section
/-! DEFINITION. The parameters of the model (R3), and the values the spec leaves open. An `opaque` constant has no
body: nothing can be proved of its value, so what is proved holds for every value. -/

namespace Sys2Proof

/-- `KBD_PROPS` (R3, D26): the snapshot property name of each keyboard field. -/
structure KbdProps where
  msg : String
  pending : String
  queue : String
  deriving DecidableEq, Repr

/-- `TDA_PROPS` (R3, D26): the snapshot property name of each TDA field. -/
structure TdaProps where
  msg : String
  pending : String
  cursor : String
  blink : String
  bufferPtr : String
  fontPtr : String
  deriving DecidableEq, Repr

/-- `REG_MAP` (R3, R54, D3): the bus address of each slot of the two register ports, slot 0 first. The spec gives it no
width and no law, so an address is any natural number and two slots may share one (log 15). -/
structure RegMap where
  kbd : Vector Nat 8
  tda : Vector Nat 8
  deriving DecidableEq, Repr

/-- The parameters of R3 that the spec leaves OPEN, and `ROM_BASE`. They are constant for the life of the model. -/
structure Params where
  /-- `BSIZE`, the capacity of the keyboard queue. -/
  bsize : Nat
  /-- `RAM_SIZE`, in bytes. -/
  ramSize : Nat
  /-- `ROM_SIZE`, in bytes. -/
  romSize : Nat
  /-- `ROM_BASE`, the pointer value at which ROM begins. -/
  romBase : Nat
  /-- `PALETTE[0..15]` (R24). -/
  palette : Vector Pixel 16
  /-- `FONT_ROM[0..2047]` (R25). -/
  fontRom : Vector Byte 2048
  kbdProps : KbdProps
  tdaProps : TdaProps
  regMap : RegMap
  deriving DecidableEq, Repr

/-- The names of the keyboard's properties. -/
def KbdProps.names (p : KbdProps) : List String :=
  [p.msg, p.pending, p.queue]

/-- The names of the TDA's properties. -/
def TdaProps.names (p : TdaProps) : List String :=
  [p.msg, p.pending, p.cursor, p.blink, p.bufferPtr, p.fontPtr]

/-- An injective `KBD_PROPS`, as R3 has it. The field values after `:=` are the placeholders of `44_snapshot.md`; they only
show that such a map exists, and no map is forced to have them. -/
structure KbdNaming where
  props : KbdProps :=
    { msg := "msg"
      pending := "pending"
      queue := "queue" }
  injective : props.names.Nodup := by decide
  deriving Inhabited

/-- An injective `TDA_PROPS`, as R3 has it; the values after `:=` are as for `KbdNaming`. -/
structure TdaNaming where
  props : TdaProps :=
    { msg := "msg"
      pending := "pending"
      cursor := "cursor"
      blink := "blink"
      bufferPtr := "buffer_ptr"
      fontPtr := "font_ptr" }
  injective : props.names.Nodup := by decide
  deriving Inhabited

/-- The constraints R3 puts on the OPEN parameters: `BSIZE` is at least 1, and the property maps are injective. -/
abbrev Params.wf (p : Params) : Prop :=
  1 ≤ p.bsize ∧ p.kbdProps.names.Nodup ∧ p.tdaProps.names.Nodup

/-- `TEXT_BUFFER_SIZE` (R3): 40 × 30 cells of 2 bytes. -/
def textBufferSize : Nat := 2400

/-- `FONT_BUFFER_SIZE` (R3): 256 glyphs of 8 bytes. -/
def fontBufferSize : Nat := 2048

/-- `BSIZE` less one: R3 gives `BSIZE` no value, only that it is at least 1. -/
opaque Config.bsizeLessOne : Nat

/-- `RAM_SIZE` (R3: OPEN). -/
opaque Config.ramSize : Nat

/-- `ROM_SIZE` (R3: OPEN). -/
opaque Config.romSize : Nat

/-- `PALETTE` (R24: OPEN). -/
opaque Config.palette : Vector Pixel 16

/-- `FONT_ROM` (R25: OPEN). -/
opaque Config.fontRom : Vector Byte 2048

/-- `KBD_PROPS` (R3: OPEN): any injective map. -/
opaque Config.kbdNaming : KbdNaming

/-- `TDA_PROPS` (R3: OPEN): any injective map. -/
opaque Config.tdaNaming : TdaNaming

/-- `REG_MAP` of the keyboard (R3: OPEN). -/
opaque Config.kbdRegMap : Vector Nat 8

/-- `REG_MAP` of the TDA (R3: OPEN). -/
opaque Config.tdaRegMap : Vector Nat 8

/-- The message a false `DoesInterrupt` returns, "any 16-bit value" (R152, U3): a free value for each draw, one
sequence for the keyboard (log 6). -/
opaque Config.freeKbdMessage : Nat → Word

/-- As `Config.freeKbdMessage`, for the TDA. -/
opaque Config.freeTdaMessage : Nat → Word

/-- The parameters the machine has at reset: every OPEN one of R3 opaque, with no more known of it than the constraint
R3 states, and `ROM_BASE` at the default R3 gives (log 3). -/
def Config.params : Params where
  bsize := Config.bsizeLessOne + 1
  ramSize := Config.ramSize
  romSize := Config.romSize
  romBase := 0x100000
  palette := Config.palette
  fontRom := Config.fontRom
  kbdProps := Config.kbdNaming.props
  tdaProps := Config.tdaNaming.props
  regMap :=
    { kbd := Config.kbdRegMap
      tda := Config.tdaRegMap }

end Sys2Proof
end

