-- ==== Sys2Proof/Machine/State.lean ====
section
/-! DEFINITION. The state of the machine: the two devices (R10 to R19), the memories they read (R40), the parameters
(R3), what their ports last gave out, and the schedule of the environment's moves. -/

namespace Sys2Proof.Machine

/-- A byte memory: pairs of an index and the byte there, in one canonical form (`Memory.wf`). An index that is not
listed reads as 0 (log 4). -/
abbrev Memory := List Host.Cell

/-- The canonical form: indices strictly rising, and no listed byte equal to what an unlisted index reads as. -/
abbrev Memory.wf (m : Memory) : Prop :=
  (m.map (·.1)).Pairwise (· < ·) ∧ ∀ c ∈ m, c.2 ≠ 0#8

/-- Every listed index exists: it is below the memory's size (R41). -/
abbrev Memory.bounded (m : Memory) (size : Nat) : Prop :=
  ∀ c ∈ m, c.1 < size

/-- The interrupt latch of a device, "pair `(pending: bool, message: 16-bit word)`" (R15, R17): `(K.pending, K.msg)`
or `(T.do_vsync, T.vsync_msg)`. -/
structure Latch where
  pending : Bool
  msg : Word
  deriving DecidableEq, Repr

/-- The keyboard (R11, R14, R15). The front of the queue is the head of the list. -/
structure Keyboard where
  a : Word
  b : Word
  c : Word
  q : List Event
  latch : Latch
  deriving DecidableEq, Repr

/-- The text display adapter (R12, R16 to R19). `latch` is `(T.do_vsync, T.vsync_msg)`. -/
structure Tda where
  a : Word
  b : Word
  d : Word
  e : Word
  bufferPtr : Pointer
  fontPtr : Pointer
  cursor : Bool
  blink : Bool
  latch : Latch
  blinkCtr : BitVec 4
  deriving DecidableEq, Repr

/-- What a device's ports last gave out: the result of its last operation of each kind, none before the first
(the model's own fields, log 2). -/
structure PortOut where
  /-- `bus_rdata`: the last result of `RegRead` (R82). -/
  rdata : Option Word := none
  /-- The last result of `DoesInterrupt`: flag and message (R152). -/
  irq : Option (Bool × Word) := none
  /-- The last result of `IsSyncDev` (R105). -/
  sync : Option Bool := none
  /-- The last result of `GetState` (R131, R132). -/
  snap : Option Snapshot := none
  /-- `snap_ok`: the last result of `SetState` (R133, R136). -/
  snapOk : Option Bool := none
  /-- The last pixel array of a frame, pixel `(px, py)` at index `px + 320*py` (R26); the TDA's only. -/
  frame : Option (List Pixel) := none
  /-- How many free messages have been drawn (log 6). -/
  draws : Nat := 0
  deriving DecidableEq, Repr

/-- The whole machine. -/
structure State where
  /-- The parameters of R3; no step changes them. -/
  params : Params
  /-- RAM (R40, R41). -/
  ram : Memory
  /-- ROM (R40, R41). -/
  rom : Memory
  /-- The keyboard. -/
  k : Keyboard
  /-- The text display adapter. -/
  t : Tda
  /-- The keyboard's results. -/
  kOut : PortOut
  /-- The TDA's results. -/
  tOut : PortOut
  /-- The moves of the environment that are still to come, the next one first (log 1). -/
  inputs : List Input
  deriving DecidableEq, Repr

/-- Why the machine stops with a fault. No operation of the block raises one (R158). -/
inductive Fault where
  /-- The environment makes the CPU write a RAM index that does not exist (not below `RAM_SIZE`, R41). Raised by the
  input `cpuWrite` alone, never by an instruction. Safe: the model stops where the CPU, out of scope, would do
  something the spec does not say. -/
  | ramHole (index : Nat)
  deriving DecidableEq, Repr

/-- Why the machine has no meaning for what it was asked to do. -/
inductive Refusal where
  /-- An instruction without a meaning; raised by no arm. Safe. -/
  | notModelled (mnemonic : String)
  /-- A request at a port that is no operation of the block; raised by the step, before any operation runs. Safe. -/
  | undecodable (why : DecodeError)
  /-- A bus access at an address that `REG_MAP` gives to more than one slot; raised by the step, before any operation
  runs. Safe: the spec does not say which slot answers (log 15). -/
  | addressShared (addr : Nat)
  /-- R111 (a): `Capture` with the text buffer unmapped; raised by the two frames as requests of their own. Safe. -/
  | bufferUnmapped
  /-- R111 (b): `Capture` with a text buffer that does not fit RAM; raised by the two frames as requests of their own. Safe. -/
  | bufferUnfit
  /-- R111 (c): `Capture` with a font pointer in no region; raised by the two frames as requests of their own. Safe. -/
  | fontUnfit
  deriving DecidableEq, Repr

/-- A latch at reset (R30). -/
def Latch.cleared : Latch where
  pending := false
  msg := 0#16

/-- The keyboard at reset (R30, R180). -/
def Keyboard.cleared : Keyboard where
  a := 0#16
  b := 0#16
  c := 0#16
  q := []
  latch := Latch.cleared

/-- The TDA at reset (R30, R181). -/
def Tda.cleared : Tda where
  a := 0#16
  b := 0#16
  d := 0#16
  e := 0#16
  bufferPtr := 0#32
  fontPtr := 0#32
  cursor := false
  blink := false
  latch := Latch.cleared
  blinkCtr := 0#4

/-- The machine right after reset, which is also its power-on state (R30, R182): both devices cleared, nothing listed
in memory, the parameters of `Config.params`, no result given out, nothing scheduled. -/
def State.reset : State where
  params := Config.params
  ram := []
  rom := []
  k := Keyboard.cleared
  t := Tda.cleared
  kOut := {}
  tOut := {}
  inputs := []

end Sys2Proof.Machine
end

