-- ==== Sys2Proof/Machine/Screen.lean ====
section
/-! DEFINITION. The TDAScreen (R23): the value `Capture` produces and `Render` consumes. -/

namespace Sys2Proof.Machine

/-- A TDAScreen: "a pure value; it holds no pointer into memory" (R23). -/
structure Screen where
  /-- The cells, row by row: 30 rows of 40. -/
  cells : List (List Word)
  /-- Whether the font is a user font. -/
  userFont : Bool
  /-- The 2048 bytes of the selected font. -/
  font : List Byte
  enabled : Bool
  blinkEnabled : Bool
  row : BitVec 8
  col : BitVec 8
  scanlineStart : BitVec 3
  scanlineEnd : BitVec 3
  color : BitVec 4
  deriving DecidableEq, Repr

/-- `cells[r][c]`. -/
def Screen.cell (scr : Screen) (r c : Nat) : Word :=
  (scr.cells.getD r []).getD c 0#16

/-- `font[k]`. -/
def Screen.fontByte (scr : Screen) (k : Nat) : Byte :=
  scr.font.getD k 0#8

end Sys2Proof.Machine
end

