-- ==== Sys2Proof/Machine/Flags.lean ====
section
/-! DEFINITION. The flags: the two a write of `T.e` sets (R81), what a latch reports (R152), and whether a frame draws
the cursor (R116, R118). -/

namespace Sys2Proof.Machine

/-- `T.cursor` after a write of `e`: `e[11]` (R81). -/
def cursorFlag (e : Word) : Bool :=
  e.getLsbD 11

/-- `T.blink` after a write of `e`: `e[7]` (R81). -/
def blinkFlag (e : Word) : Bool :=
  e.getLsbD 7

/-- `flag = (pending = 1) and (msg != 0)` (R152). -/
def Latch.reports (l : Latch) : Bool :=
  l.pending && l.msg != 0#16

/-- `cursor_visible` (R116). -/
def cursorVisible (scr : Screen) : Bool :=
  scr.enabled && decide (scr.scanlineStart ≤ scr.scanlineEnd) && decide (scr.row.toNat < 30)
    && decide (scr.col.toNat < 40)

/-- `phase_on` (R118). -/
def phaseOn (scr : Screen) (ctr : BitVec 4) : Bool :=
  !scr.blinkEnabled || decide (ctr.toNat < 8)

/-- Whether pixel row `y` of cell `(r, c)` lies in the cursor's rectangle (R117). -/
def inCursor (scr : Screen) (r c y : Nat) : Bool :=
  decide (r = scr.row.toNat) && decide (c = scr.col.toNat) && decide (scr.scanlineStart.toNat ≤ y)
    && decide (y ≤ scr.scanlineEnd.toNat)

end Sys2Proof.Machine
end

