-- ==== Sys2Proof/Machine/Operands.lean ====
section
/-! DEFINITION. Operand assembly: the fields of registers, events, cells and pixels, and the byte order (R13, R20 to
R22, R43, R66, R67, R120, R131). -/

namespace Sys2Proof.Machine

/-- The mapping address `(b << 16) | a` (R66). -/
def candidate (t : Tda) : Pointer :=
  t.b ++ t.a

/-- `pack(a, b, c)`: status from `c[2:0]`, key code from `a[7:0]`, scan code from `b` (R67). -/
def pack (a b c : Word) : Event :=
  ((c.extractLsb' 0 3).setWidth 32 <<< 24) ||| ((a.extractLsb' 0 8).setWidth 32 <<< 16) ||| b.setWidth 32

/-- The key code `ev[23:16]`, zero-extended: `a'` of `unpack` (R67). -/
def eventKeycode (ev : Event) : Word :=
  (ev.extractLsb' 16 8).setWidth 16

/-- The scan code `ev[15:0]`: `b'` of `unpack` (R67). -/
def eventScancode (ev : Event) : Word :=
  ev.extractLsb' 0 16

/-- The status `ev[26:24]`, zero-extended: `c'` of `unpack` (R67). -/
def eventStatus (ev : Event) : Word :=
  (ev.extractLsb' 24 3).setWidth 16

/-- The cursor row `d[15:8]` (R20). -/
def cursorRow (d : Word) : BitVec 8 :=
  d.extractLsb' 8 8

/-- The cursor column `d[7:0]` (R20). -/
def cursorCol (d : Word) : BitVec 8 :=
  d.extractLsb' 0 8

/-- `scanline_start`, `e[6:4]` (R21). -/
def cursorStart (e : Word) : BitVec 3 :=
  e.extractLsb' 4 3

/-- `scanline_end`, `e[10:8]` (R21). -/
def cursorEnd (e : Word) : BitVec 3 :=
  e.extractLsb' 8 3

/-- The cursor's palette index, `e[3:0]` (R21). -/
def cursorColor (e : Word) : BitVec 4 :=
  e.extractLsb' 0 4

/-- The glyph index of a cell, bits 7:0 (R22). -/
def cellGlyph (cell : Word) : BitVec 8 :=
  cell.extractLsb' 0 8

/-- The foreground palette index of a cell, bits 11:8 (R22). -/
def cellFg (cell : Word) : BitVec 4 :=
  cell.extractLsb' 8 4

/-- The background palette index of a cell, bits 15:12 (R22). -/
def cellBg (cell : Word) : BitVec 4 :=
  cell.extractLsb' 12 4

/-- `le16(b0, b1)`: the low byte first (R43). -/
def le16 (b0 b1 : Byte) : Word :=
  b1 ++ b0

/-- `le32(b0, b1, b2, b3)`: the low byte first (R134). -/
def le32 (b0 b1 b2 b3 : Byte) : Event :=
  b3 ++ b2 ++ b1 ++ b0

/-- The four bytes of a queued event, low byte first: `b(w)` of R131. -/
def eventBytes (w : Event) : List Byte :=
  [w.extractLsb' 0 8, w.extractLsb' 8 8, w.extractLsb' 16 8, w.extractLsb' 24 8]

/-- The queue as one blob, front first: `bytes` of R131. -/
def queueBytes : List Event → List Byte
  | [] => []
  | w :: ws => eventBytes w ++ queueBytes ws

/-- The words of a blob, front first; one to three bytes left over are ignored (R134). -/
def blobWords : List Byte → List Event
  | b0 :: b1 :: b2 :: b3 :: rest => le32 b0 b1 b2 b3 :: blobWords rest
  | _ => []

/-- A pixel with its byte lanes 0 (red) and 2 (blue) exchanged (R120). -/
def swapLanes (p : Pixel) : Pixel :=
  (p &&& 0xFF00FF00#32) ||| ((p &&& 0x000000FF#32) <<< 16) ||| ((p &&& 0x00FF0000#32) >>> 16)

end Sys2Proof.Machine
end

