-- ==== Sys2Proof/Machine/Ops.lean ====
section
/-! DEFINITION. The shared operations: updates of the state, memory, the bounds predicates, the interrupt latch (the
block's one piece of exception machinery: it takes no exception, R158, R159), and what each command, register access,
reset and snapshot operation does to one device. -/

namespace Sys2Proof.Machine

/-! ## Updates of the state -/

/-- The state with another keyboard. -/
def State.setKbd (s : State) (k : Keyboard) : State :=
  { s with k := k }

/-- The state with another TDA. -/
def State.setTda (s : State) (t : Tda) : State :=
  { s with t := t }

/-- The state with other keyboard results. -/
def State.setKOut (s : State) (o : PortOut) : State :=
  { s with kOut := o }

/-- The state with other TDA results. -/
def State.setTOut (s : State) (o : PortOut) : State :=
  { s with tOut := o }

/-- The state with another RAM. -/
def State.setRam (s : State) (m : Memory) : State :=
  { s with ram := m }

/-- The state with another schedule. -/
def State.setInputs (s : State) (is : List Input) : State :=
  { s with inputs := is }

/-- The keyboard's `RegRead` gives `v` (R82). -/
def State.kbdReads (s : State) (v : Word) : State :=
  s.setKOut { s.kOut with rdata := some v }

/-- The TDA's `RegRead` gives `v` (R82). -/
def State.tdaReads (s : State) (v : Word) : State :=
  s.setTOut { s.tOut with rdata := some v }

/-! ## Memory (R40 to R43) -/

/-- The byte at an index; 0 where nothing is listed (log 4). -/
def Memory.read : Memory → Nat → Byte
  | [], _ => 0#8
  | (i, v) :: m, a => if i = a then v else Memory.read m a

/-- The memory with byte `v` at index `a`, in the canonical form: a zero byte is not listed. -/
def Memory.write : Memory → Nat → Byte → Memory
  | [], a, v => if v = 0#8 then [] else [(a, v)]
  | (i, w) :: m, a, v =>
    if a < i then (if v = 0#8 then (i, w) :: m else (a, v) :: (i, w) :: m)
    else if a = i then (if v = 0#8 then m else (a, v) :: m)
    else (i, w) :: Memory.write m a v

/-- The byte of RAM at index `a`. -/
def State.readRam (s : State) (a : Nat) : Byte :=
  s.ram.read a

/-- The byte of ROM at index `a`. -/
def State.readRom (s : State) (a : Nat) : Byte :=
  s.rom.read a

/-- The byte of `FONT_ROM` at index `k` (R25). -/
def fontRomByte (p : Params) (k : Nat) : Byte :=
  p.fontRom.toList.getD k 0#8

/-- The CPU writes one byte of RAM, an input of the environment (R41; log 5). -/
def cpuWrite (a : Nat) (v : Byte) (s : State) : Host.Outcome State Fault Refusal :=
  if a < s.params.ramSize then .next (s.setRam (s.ram.write a v)) else .fault (.ramHole a)

/-! ## The bounds predicate and the regions (R42, R48) -/

/-- `fitsRAM(p, n)`, the sum on unbounded naturals (R48). -/
def fitsRam (ps : Params) (p : Pointer) (n : Nat) : Bool :=
  decide (p.toNat + n ≤ ps.ramSize)

/-- `fitsROM(p, n)` (R48). -/
def fitsRom (ps : Params) (p : Pointer) (n : Nat) : Bool :=
  decide (ps.romBase ≤ p.toNat) && decide ((p.toNat - ps.romBase) + n ≤ ps.romSize)

/-- The regions a font pointer can lie in (R42). -/
inductive Region where
  | ram
  | rom
  deriving DecidableEq, Repr

/-- `font_region(p)`; `none` is the rule's NONE. RAM is tested first (R42). -/
def fontRegion (ps : Params) (p : Pointer) : Option Region :=
  if fitsRam ps p fontBufferSize then some .ram
  else if fitsRom ps p fontBufferSize then some .rom
  else none

/-! ## The interrupt latch (R150 to R156), one contract for both devices (R17) -/

/-- `RaiseInt`: sets the pending flag, whatever the message (R151). -/
def Latch.raised (l : Latch) : Latch :=
  { l with pending := true }

/-- `IACK`: clears the pending flag and keeps the message (R153). -/
def Latch.acknowledged (l : Latch) : Latch :=
  { l with pending := false }

/-- `SET_INT`: writes the message and keeps the pending flag (R94, R103). -/
def Latch.withMessage (l : Latch) (msg : Word) : Latch :=
  { l with msg := msg }

/-- `DoesInterrupt` on a latch: the results of the port after the poll. The message of a false answer is `free`, a
free value, and drawing it advances the counter (R152; log 6). -/
def PortOut.polled (o : PortOut) (l : Latch) (free : Word) : PortOut :=
  if l.reports then { o with irq := some (true, l.msg) }
  else { o with irq := some (false, free), draws := o.draws + 1 }

/-! ## Keyboard commands (R90 to R95) -/

/-- `CLR_BUFFER` (R91). -/
def Keyboard.clrBuffer (k : Keyboard) : Keyboard :=
  { k with q := [] }

/-- `PULL_KEY`: the oldest event is the back of the queue (R92). -/
def Keyboard.pullKey (k : Keyboard) : Keyboard :=
  match k.q.getLast? with
  | some ev =>
    { k with q := k.q.dropLast, a := eventKeycode ev, b := eventScancode ev, c := eventStatus ev }
  | none => { k with a := 0#16, b := 0#16, c := 0#16 }

/-- `PUSH_KEY`: the new event goes to the front, and is dropped when the queue is full (R93). -/
def Keyboard.pushKey (bsize : Nat) (k : Keyboard) : Keyboard :=
  if k.q.length < bsize then { k with q := pack k.a k.b k.c :: k.q } else k

/-- `SET_INT` on the keyboard (R94). -/
def Keyboard.setInt (k : Keyboard) : Keyboard :=
  { k with latch := k.latch.withMessage k.a }

/-- `SendCMD(cmd)` on the keyboard: dispatch on the whole word (R90). -/
def Keyboard.sendCmd (bsize : Nat) (cmd : Word) (k : Keyboard) : Keyboard :=
  if cmd = 0x0000#16 then k.clrBuffer
  else if cmd = 0x0001#16 then k.pullKey
  else if cmd = 0x0002#16 then k.pushKey bsize
  else if cmd = 0x0003#16 then k.setInt
  else k

/-! ## TDA commands (R100 to R104) -/

/-- `MAP_BUFFER` (R101). -/
def Tda.mapBuffer (ps : Params) (t : Tda) : Tda :=
  if fitsRam ps (candidate t) textBufferSize then { t with bufferPtr := candidate t } else t

/-- `MAP_FONT`: the candidate is committed, unchanged, if it lies in a region (R102). -/
def Tda.mapFont (ps : Params) (t : Tda) : Tda :=
  if fitsRam ps (candidate t) fontBufferSize then { t with fontPtr := candidate t }
  else if fitsRom ps (candidate t) fontBufferSize then { t with fontPtr := candidate t }
  else t

/-- `SET_INT` on the TDA (R103). -/
def Tda.setInt (t : Tda) : Tda :=
  { t with latch := t.latch.withMessage t.a }

/-- `SendCMD(cmd)` on the TDA: dispatch on the whole word (R100). -/
def Tda.sendCmd (ps : Params) (cmd : Word) (t : Tda) : Tda :=
  if cmd = 0x0000#16 then t.mapBuffer ps
  else if cmd = 0x0001#16 then t.mapFont ps
  else if cmd = 0x0002#16 then t.setInt
  else t

/-- `RegWrite` to slot `E` of the TDA writes the register and the two flags (R81). -/
def Tda.writeE (v : Word) (t : Tda) : Tda :=
  { t with e := v, cursor := cursorFlag v, blink := blinkFlag v }

/-! ## Reset (R180, R181) -/

/-- Keyboard `Reset` (R180). -/
def Keyboard.reset (_ : Keyboard) : Keyboard :=
  Keyboard.cleared

/-- TDA `Reset` (R181). -/
def Tda.reset (_ : Tda) : Tda :=
  Tda.cleared

/-! ## Snapshots (R130 to R138) -/

/-- The property of a name, if the snapshot has it. "Property lookup is by name, not position" (R130). -/
def propOf : List (String × PropValue) → String → Option PropValue
  | [], _ => none
  | (n, v) :: ps, name => if n = name then some v else propOf ps name

/-- The `INT` property of a name; one of another type counts as absent (R133). -/
def intProp (snap : Snapshot) (name : String) : Option Nat :=
  match propOf snap.props name with
  | some (.int v) => some v
  | _ => none

/-- The `BOOL` property of a name; one of another type counts as absent (R133). -/
def boolProp (snap : Snapshot) (name : String) : Option Bool :=
  match propOf snap.props name with
  | some (.bool b) => some b
  | _ => none

/-- The `RAW` property of a name; one of another type counts as absent (R133). -/
def rawProp (snap : Snapshot) (name : String) : Option (List Byte) :=
  match propOf snap.props name with
  | some (.raw bytes) => some bytes
  | _ => none

/-- Keyboard `GetState` (R131). -/
def Keyboard.snapshot (p : KbdProps) (k : Keyboard) : Snapshot where
  regs := [k.a, k.b, k.c, 0#16, 0#16]
  props :=
    [(p.msg, .int k.latch.msg.toNat), (p.pending, .bool k.latch.pending), (p.queue, .raw (queueBytes k.q))]

/-- TDA `GetState`: a pointer is emitted only when it is not zero (R132). -/
def Tda.snapshot (p : TdaProps) (t : Tda) : Snapshot where
  regs := [t.a, t.b, 0#16, t.d, t.e]
  props :=
    [(p.msg, .int t.latch.msg.toNat), (p.pending, .bool t.latch.pending), (p.cursor, .bool t.cursor),
      (p.blink, .bool t.blink)]
    ++ (if t.bufferPtr = 0#32 then [] else [(p.bufferPtr, .int t.bufferPtr.toNat)])
    ++ (if t.fontPtr = 0#32 then [] else [(p.fontPtr, .int t.fontPtr.toNat)])

/-- The queue a blob restores: its last `min(n, BSIZE)` words, front first (R134). -/
def restoredQueue (bsize : Nat) (bytes : List Byte) : List Event :=
  (blobWords bytes).drop ((blobWords bytes).length - min (blobWords bytes).length bsize)

/-- The latch a snapshot restores, from its `INT` message and `BOOL` flag; what is absent stays (R133 to R135). -/
def Latch.restore (snap : Snapshot) (msgName pendingName : String) (l : Latch) : Latch where
  pending := (boolProp snap pendingName).getD l.pending
  msg := ((intProp snap msgName).map (BitVec.ofNat 16)).getD l.msg

/-- Keyboard `SetState`: `none` when the base register restore fails (R133, R134, R136). -/
def Keyboard.restore (ps : Params) (snap : Snapshot) (k : Keyboard) : Option Keyboard :=
  match snap.regs with
  | a :: b :: c :: _ :: _ :: _ =>
    some
      { a := a
        b := b
        c := c
        q := ((rawProp snap ps.kbdProps.queue).map (restoredQueue ps.bsize)).getD k.q
        latch := k.latch.restore snap ps.kbdProps.msg ps.kbdProps.pending }
  | _ => none

/-- TDA `SetState`: `none` when the base register restore fails. Pointers are restored without the fit test, the font
pointer into `T.font_ptr`; the blink counter stays (R133, R135, R136). -/
def Tda.restore (ps : Params) (snap : Snapshot) (t : Tda) : Option Tda :=
  match snap.regs with
  | a :: b :: _ :: d :: e :: _ =>
    some
      { a := a
        b := b
        d := d
        e := e
        bufferPtr := ((intProp snap ps.tdaProps.bufferPtr).map (BitVec.ofNat 32)).getD t.bufferPtr
        fontPtr := ((intProp snap ps.tdaProps.fontPtr).map (BitVec.ofNat 32)).getD t.fontPtr
        cursor := (boolProp snap ps.tdaProps.cursor).getD t.cursor
        blink := (boolProp snap ps.tdaProps.blink).getD t.blink
        latch := t.latch.restore snap ps.tdaProps.msg ps.tdaProps.pending
        blinkCtr := t.blinkCtr }
  | _ => none

end Sys2Proof.Machine
end

