-- ==== Sys2Proof/Machine/Raster.lean ====
section
/-! DEFINITION. The rasterizer: `Capture` (R110, R111), `Render` (R112 to R119) and `RenderSwapped` (R120). -/

namespace Sys2Proof.Machine

/-- Where the font bytes of a frame come from, with the index of byte 0 (R46). -/
inductive FontSource where
  /-- `FONT_ROM`: the font pointer is zero. -/
  | builtIn
  /-- RAM, from this index on. -/
  | ram (base : Nat)
  /-- ROM, from this index on. -/
  | rom (base : Nat)
  deriving DecidableEq, Repr

/-- The font source of a font pointer; none where it is not zero and in no region (R46, R111 (c)). -/
def fontSource (ps : Params) (p : Pointer) : Option FontSource :=
  if p = 0#32 then some .builtIn
  else
    match fontRegion ps p with
    | some .ram => some (.ram p.toNat)
    | some .rom => some (.rom (p.toNat - ps.romBase))
    | none => none

/-- Byte `k` of the font a frame sees (R46). -/
def captureFontByte (s : State) (src : FontSource) (k : Nat) : Byte :=
  match src with
  | .builtIn => fontRomByte s.params k
  | .ram base => s.readRam (base + k)
  | .rom base => s.readRom (base + k)

/-- The cell at row `r`, column `c` of the text buffer: little-endian, 40 cells a row (R43, R45). -/
def captureCell (s : State) (r c : Nat) : Word :=
  le16 (s.readRam (s.t.bufferPtr.toNat + 2 * (40 * r + c)))
    (s.readRam (s.t.bufferPtr.toNat + 2 * (40 * r + c) + 1))

/-- The screen `Capture` builds once its pointers are found usable (R110). -/
def captureScreen (s : State) (src : FontSource) : Screen where
  cells := (List.range' 0 30).map fun r => (List.range' 0 40).map fun c => captureCell s r c
  userFont := decide (s.t.fontPtr ≠ 0#32)
  font := (List.range' 0 fontBufferSize).map fun k => captureFontByte s src k
  enabled := s.t.cursor
  blinkEnabled := s.t.blink
  row := cursorRow s.t.d
  col := cursorCol s.t.d
  scanlineStart := cursorStart s.t.e
  scanlineEnd := cursorEnd s.t.e
  color := cursorColor s.t.e

/-- `Capture`, refused in the three cases of R111. -/
def capture (s : State) : Except Refusal Screen :=
  if s.t.bufferPtr = 0#32 then .error .bufferUnmapped
  else if fitsRam s.params s.t.bufferPtr textBufferSize then
    match fontSource s.params s.t.fontPtr with
    | some src => .ok (captureScreen s src)
    | none => .error .fontUnfit
  else .error .bufferUnfit

/-- A colour of the palette (R24). -/
def colour (p : Params) (i : BitVec 4) : Pixel :=
  p.palette.get i.toFin

/-- Text pass: pixel `(x, y)` of cell `(r, c)` (R113 to R115). -/
def textPixel (ps : Params) (scr : Screen) (r c y x : Nat) : Pixel :=
  let cell := scr.cell r c
  let rowbits := scr.fontByte (8 * (cellGlyph cell).toNat + y)
  if rowbits.getLsbD (7 - x) then colour ps (cellFg cell) else colour ps (cellBg cell)

/-- Pixel `(x, y)` of cell `(r, c)` after the cursor overlay (R116 to R118). -/
def framePixel (ps : Params) (scr : Screen) (ctr : BitVec 4) (r c y x : Nat) : Pixel :=
  if cursorVisible scr && phaseOn scr ctr && inCursor scr r c y then colour ps scr.color
  else textPixel ps scr r c y x

/-- The pixels of `Render`, row-major: element `i` is pixel `(i mod 320, i / 320)`, which lies in cell
`(i / 320 / 8, i mod 320 / 8)`. The cells tile the array (R112), so each pixel is what the text pass and then the
overlay last write there (DEDUCED: log 11). -/
def renderPixels (ps : Params) (scr : Screen) (ctr : BitVec 4) : List Pixel :=
  (List.range' 0 76800).map fun i =>
    framePixel ps scr ctr (i / 320 / 8) (i % 320 / 8) (i / 320 % 8) (i % 320 % 8)

/-- The pixels of `RenderSwapped`: those of `Render`, lanes 0 and 2 of each exchanged (R120). -/
def renderSwappedPixels (ps : Params) (scr : Screen) (ctr : BitVec 4) : List Pixel :=
  (renderPixels ps scr ctr).map swapLanes

/-- The TDA after a `Render` or `RenderSwapped`: the blink counter advanced modulo 16 (R119). -/
def Tda.rendered (t : Tda) : Tda :=
  { t with blinkCtr := t.blinkCtr + 1#4 }

end Sys2Proof.Machine
end

