-- ==== Sys2Proof/Machine/Frames.lean ====
section
/-! DEFINITION. The frame: `Capture` then `Render` or `RenderSwapped`, one atomic operation (R122). -/

namespace Sys2Proof.Machine

/-- `FRAME`: `Capture` then `Render` (R122). Refused where `Capture` is (R111; log 8). -/
def execTFrame (s : State) : Host.Outcome State Fault Refusal :=
  match capture s with
  | .ok scr =>
    .next ((s.setTda s.t.rendered).setTOut
      { s.tOut with frame := some (renderPixels s.params scr s.t.blinkCtr) })
  | .error why => .refused why

/-- `FRAME.SWAP`: `Capture` then `RenderSwapped` (R122). Refused where `Capture` is (R111; log 8). -/
def execTFrameSwap (s : State) : Host.Outcome State Fault Refusal :=
  match capture s with
  | .ok scr =>
    .next ((s.setTda s.t.rendered).setTOut
      { s.tOut with frame := some (renderSwappedPixels s.params scr s.t.blinkCtr) })
  | .error why => .refused why

end Sys2Proof.Machine
end

