-- ==== Sys2Proof/Machine/Interrupts.lean ====
section
/-! DEFINITION. `Reset` (R180, R181), the interrupt latch (R151 to R153), and `IsSyncDev` (R105). -/

namespace Sys2Proof.Machine

/-- `RESET` of the keyboard (R180). -/
def execKReset (s : State) : Host.Outcome State Fault Refusal :=
  .next (s.setKbd s.k.reset)

/-- `RESET` of the TDA (R181). -/
def execTReset (s : State) : Host.Outcome State Fault Refusal :=
  .next (s.setTda s.t.reset)

/-- `RAISE` on the keyboard (R151). -/
def execKRaise (s : State) : Host.Outcome State Fault Refusal :=
  .next (s.setKbd { s.k with latch := s.k.latch.raised })

/-- `RAISE` on the TDA (R151). -/
def execTRaise (s : State) : Host.Outcome State Fault Refusal :=
  .next (s.setTda { s.t with latch := s.t.latch.raised })

/-- `POLL` on the keyboard: `DoesInterrupt` (R152). -/
def execKPoll (s : State) : Host.Outcome State Fault Refusal :=
  .next (s.setKOut (s.kOut.polled s.k.latch (Config.freeKbdMessage s.kOut.draws)))

/-- `POLL` on the TDA: `DoesInterrupt` (R152). -/
def execTPoll (s : State) : Host.Outcome State Fault Refusal :=
  .next (s.setTOut (s.tOut.polled s.t.latch (Config.freeTdaMessage s.tOut.draws)))

/-- `IACK` on the keyboard (R153). -/
def execKIack (s : State) : Host.Outcome State Fault Refusal :=
  .next (s.setKbd { s.k with latch := s.k.latch.acknowledged })

/-- `IACK` on the TDA (R153). -/
def execTIack (s : State) : Host.Outcome State Fault Refusal :=
  .next (s.setTda { s.t with latch := s.t.latch.acknowledged })

/-- `ISSYNC` on the keyboard: false (R105). -/
def execKIsSync (s : State) : Host.Outcome State Fault Refusal :=
  .next (s.setKOut { s.kOut with sync := some false })

/-- `ISSYNC` on the TDA: false (R105). -/
def execTIsSync (s : State) : Host.Outcome State Fault Refusal :=
  .next (s.setTOut { s.tOut with sync := some false })

end Sys2Proof.Machine
end

