-- ==== Sys2Proof/Machine/KeyboardCommands.lean ====
section
/-! DEFINITION. The keyboard commands (format `CMD_K`, R90 to R95). -/

namespace Sys2Proof.Machine

/-- `CLR_BUFFER` (R91). -/
def execKClrBuffer (s : State) : Host.Outcome State Fault Refusal :=
  .next (s.setKbd s.k.clrBuffer)

/-- `PULL_KEY` (R92). -/
def execKPullKey (s : State) : Host.Outcome State Fault Refusal :=
  .next (s.setKbd s.k.pullKey)

/-- `PUSH_KEY` (R93). -/
def execKPushKey (s : State) : Host.Outcome State Fault Refusal :=
  .next (s.setKbd (s.k.pushKey s.params.bsize))

/-- `SET_INT` on the keyboard (R94). -/
def execKSetInt (s : State) : Host.Outcome State Fault Refusal :=
  .next (s.setKbd s.k.setInt)

/-- `UNRECOGNIZED` on the keyboard: "no state element changes and nothing is reported" (R63, R95). -/
def execKUnrecognized (_code : Word) (s : State) : Host.Outcome State Fault Refusal :=
  .next s

end Sys2Proof.Machine
end

