-- ==== Sys2Proof/Machine/RegisterAccess.lean ====
section
/-! DEFINITION. The bus transactions at the register port (formats `SLOT_K`, `SLOT_T`, R80 to R84). -/

namespace Sys2Proof.Machine

/-- `WR.CMD` on the keyboard: `SendCMD(wdata)`, within the same operation (R83). -/
def execKWrCmd (wdata : Word) (s : State) : Host.Outcome State Fault Refusal :=
  .next (s.setKbd (s.k.sendCmd s.params.bsize wdata))

/-- `RD.CMD` on the keyboard: returns 0, the command word is not stored (R83). -/
def execKRdCmd (s : State) : Host.Outcome State Fault Refusal :=
  .next (s.kbdReads 0#16)

/-- `WR.A` on the keyboard (R80). -/
def execKWrA (wdata : Word) (s : State) : Host.Outcome State Fault Refusal :=
  .next (s.setKbd { s.k with a := wdata })

/-- `RD.A` on the keyboard (R82). -/
def execKRdA (s : State) : Host.Outcome State Fault Refusal :=
  .next (s.kbdReads s.k.a)

/-- `WR.B` on the keyboard (R80). -/
def execKWrB (wdata : Word) (s : State) : Host.Outcome State Fault Refusal :=
  .next (s.setKbd { s.k with b := wdata })

/-- `RD.B` on the keyboard (R82). -/
def execKRdB (s : State) : Host.Outcome State Fault Refusal :=
  .next (s.kbdReads s.k.b)

/-- `WR.C` on the keyboard (R80). -/
def execKWrC (wdata : Word) (s : State) : Host.Outcome State Fault Refusal :=
  .next (s.setKbd { s.k with c := wdata })

/-- `RD.C` on the keyboard (R82). -/
def execKRdC (s : State) : Host.Outcome State Fault Refusal :=
  .next (s.kbdReads s.k.c)

/-- `WR.D` on the keyboard: no storage, the write is ignored (R65, R80). -/
def execKWrD (_wdata : Word) (s : State) : Host.Outcome State Fault Refusal :=
  .next s

/-- `RD.D` on the keyboard: no storage, reads 0 (R65, R82). -/
def execKRdD (s : State) : Host.Outcome State Fault Refusal :=
  .next (s.kbdReads 0#16)

/-- `WR.E` on the keyboard: no storage, the write is ignored (R65, R80). -/
def execKWrE (_wdata : Word) (s : State) : Host.Outcome State Fault Refusal :=
  .next s

/-- `RD.E` on the keyboard: no storage, reads 0 (R65, R82). -/
def execKRdE (s : State) : Host.Outcome State Fault Refusal :=
  .next (s.kbdReads 0#16)

/-- `WR.RESERVED` on the keyboard: slots 6 and 7 ignore writes (R84). -/
def execKWrReserved (_slot : BitVec 3) (_wdata : Word) (s : State) : Host.Outcome State Fault Refusal :=
  .next s

/-- `RD.RESERVED` on the keyboard: slots 6 and 7 read 0 (R84). -/
def execKRdReserved (_slot : BitVec 3) (s : State) : Host.Outcome State Fault Refusal :=
  .next (s.kbdReads 0#16)

/-- `WR.CMD` on the TDA: `SendCMD(wdata)`, within the same operation (R83). -/
def execTWrCmd (wdata : Word) (s : State) : Host.Outcome State Fault Refusal :=
  .next (s.setTda (s.t.sendCmd s.params wdata))

/-- `RD.CMD` on the TDA: returns 0, the command word is not stored (R83). -/
def execTRdCmd (s : State) : Host.Outcome State Fault Refusal :=
  .next (s.tdaReads 0#16)

/-- `WR.A` on the TDA (R80). -/
def execTWrA (wdata : Word) (s : State) : Host.Outcome State Fault Refusal :=
  .next (s.setTda { s.t with a := wdata })

/-- `RD.A` on the TDA (R82). -/
def execTRdA (s : State) : Host.Outcome State Fault Refusal :=
  .next (s.tdaReads s.t.a)

/-- `WR.B` on the TDA (R80). -/
def execTWrB (wdata : Word) (s : State) : Host.Outcome State Fault Refusal :=
  .next (s.setTda { s.t with b := wdata })

/-- `RD.B` on the TDA (R82). -/
def execTRdB (s : State) : Host.Outcome State Fault Refusal :=
  .next (s.tdaReads s.t.b)

/-- `WR.C` on the TDA: no storage, the write is ignored (R65, R80). -/
def execTWrC (_wdata : Word) (s : State) : Host.Outcome State Fault Refusal :=
  .next s

/-- `RD.C` on the TDA: no storage, reads 0 (R65, R82). -/
def execTRdC (s : State) : Host.Outcome State Fault Refusal :=
  .next (s.tdaReads 0#16)

/-- `WR.D` on the TDA (R80). -/
def execTWrD (wdata : Word) (s : State) : Host.Outcome State Fault Refusal :=
  .next (s.setTda { s.t with d := wdata })

/-- `RD.D` on the TDA (R82). -/
def execTRdD (s : State) : Host.Outcome State Fault Refusal :=
  .next (s.tdaReads s.t.d)

/-- `WR.E` on the TDA: the register and the two flags (R81). -/
def execTWrE (wdata : Word) (s : State) : Host.Outcome State Fault Refusal :=
  .next (s.setTda (s.t.writeE wdata))

/-- `RD.E` on the TDA (R82). -/
def execTRdE (s : State) : Host.Outcome State Fault Refusal :=
  .next (s.tdaReads s.t.e)

/-- `WR.RESERVED` on the TDA: slots 6 and 7 ignore writes (R84). -/
def execTWrReserved (_slot : BitVec 3) (_wdata : Word) (s : State) : Host.Outcome State Fault Refusal :=
  .next s

/-- `RD.RESERVED` on the TDA: slots 6 and 7 read 0 (R84). -/
def execTRdReserved (_slot : BitVec 3) (s : State) : Host.Outcome State Fault Refusal :=
  .next (s.tdaReads 0#16)

end Sys2Proof.Machine
end

