-- ==== Sys2Proof/Machine/SnapshotAccess.lean ====
section
/-! DEFINITION. `GetState` and `SetState` (R130 to R138). -/

namespace Sys2Proof.Machine

/-- `GET` on the keyboard (R131). -/
def execKGet (s : State) : Host.Outcome State Fault Refusal :=
  .next (s.setKOut { s.kOut with snap := some (s.k.snapshot s.params.kbdProps) })

/-- `GET` on the TDA (R132). -/
def execTGet (s : State) : Host.Outcome State Fault Refusal :=
  .next (s.setTOut { s.tOut with snap := some (s.t.snapshot s.params.tdaProps) })

/-- `SET` on the keyboard: true and the restored state, or false and nothing changed (R133, R134, R136). -/
def execKSet (snap : Snapshot) (s : State) : Host.Outcome State Fault Refusal :=
  match s.k.restore s.params snap with
  | some k => .next ((s.setKbd k).setKOut { s.kOut with snapOk := some true })
  | none => .next (s.setKOut { s.kOut with snapOk := some false })

/-- `SET` on the TDA: true and the restored state, or false and nothing changed (R133, R135, R136). -/
def execTSet (snap : Snapshot) (s : State) : Host.Outcome State Fault Refusal :=
  match s.t.restore s.params snap with
  | some t => .next ((s.setTda t).setTOut { s.tOut with snapOk := some true })
  | none => .next (s.setTOut { s.tOut with snapOk := some false })

end Sys2Proof.Machine
end

