-- ==== Sys2Proof/Machine/TdaCommands.lean ====
section
/-! DEFINITION. The TDA commands (format `CMD_T`, R100 to R104). -/

namespace Sys2Proof.Machine

/-- `MAP_BUFFER` (R101). -/
def execTMapBuffer (s : State) : Host.Outcome State Fault Refusal :=
  .next (s.setTda (s.t.mapBuffer s.params))

/-- `MAP_FONT` (R102). -/
def execTMapFont (s : State) : Host.Outcome State Fault Refusal :=
  .next (s.setTda (s.t.mapFont s.params))

/-- `SET_INT` on the TDA (R103). -/
def execTSetInt (s : State) : Host.Outcome State Fault Refusal :=
  .next (s.setTda s.t.setInt)

/-- `UNRECOGNIZED` on the TDA: "no state element changes and nothing is reported" (R63, R104). -/
def execTUnrecognized (_code : Word) (s : State) : Host.Outcome State Fault Refusal :=
  .next s

end Sys2Proof.Machine
end

