-- ==== Sys2Proof/Machine/Dispatch.lean ====
section
/-! DEFINITION. The dispatch of an operation to its meaning: one arm per constructor, each one direct call. -/

namespace Sys2Proof.Machine

def exec (i : Instr) (s : State) : Host.Outcome State Fault Refusal :=
  match i with
  | .kClrBuffer => Sys2Proof.Machine.execKClrBuffer s
  | .kPullKey => Sys2Proof.Machine.execKPullKey s
  | .kPushKey => Sys2Proof.Machine.execKPushKey s
  | .kSetInt => Sys2Proof.Machine.execKSetInt s
  | .kUnrecognized code => Sys2Proof.Machine.execKUnrecognized code s
  | .tMapBuffer => Sys2Proof.Machine.execTMapBuffer s
  | .tMapFont => Sys2Proof.Machine.execTMapFont s
  | .tSetInt => Sys2Proof.Machine.execTSetInt s
  | .tUnrecognized code => Sys2Proof.Machine.execTUnrecognized code s
  | .kWrCmd wdata => Sys2Proof.Machine.execKWrCmd wdata s
  | .kRdCmd => Sys2Proof.Machine.execKRdCmd s
  | .kWrA wdata => Sys2Proof.Machine.execKWrA wdata s
  | .kRdA => Sys2Proof.Machine.execKRdA s
  | .kWrB wdata => Sys2Proof.Machine.execKWrB wdata s
  | .kRdB => Sys2Proof.Machine.execKRdB s
  | .kWrC wdata => Sys2Proof.Machine.execKWrC wdata s
  | .kRdC => Sys2Proof.Machine.execKRdC s
  | .kWrD wdata => Sys2Proof.Machine.execKWrD wdata s
  | .kRdD => Sys2Proof.Machine.execKRdD s
  | .kWrE wdata => Sys2Proof.Machine.execKWrE wdata s
  | .kRdE => Sys2Proof.Machine.execKRdE s
  | .kWrReserved slot wdata => Sys2Proof.Machine.execKWrReserved slot wdata s
  | .kRdReserved slot => Sys2Proof.Machine.execKRdReserved slot s
  | .tWrCmd wdata => Sys2Proof.Machine.execTWrCmd wdata s
  | .tRdCmd => Sys2Proof.Machine.execTRdCmd s
  | .tWrA wdata => Sys2Proof.Machine.execTWrA wdata s
  | .tRdA => Sys2Proof.Machine.execTRdA s
  | .tWrB wdata => Sys2Proof.Machine.execTWrB wdata s
  | .tRdB => Sys2Proof.Machine.execTRdB s
  | .tWrC wdata => Sys2Proof.Machine.execTWrC wdata s
  | .tRdC => Sys2Proof.Machine.execTRdC s
  | .tWrD wdata => Sys2Proof.Machine.execTWrD wdata s
  | .tRdD => Sys2Proof.Machine.execTRdD s
  | .tWrE wdata => Sys2Proof.Machine.execTWrE wdata s
  | .tRdE => Sys2Proof.Machine.execTRdE s
  | .tWrReserved slot wdata => Sys2Proof.Machine.execTWrReserved slot wdata s
  | .tRdReserved slot => Sys2Proof.Machine.execTRdReserved slot s
  | .kReset => Sys2Proof.Machine.execKReset s
  | .kRaise => Sys2Proof.Machine.execKRaise s
  | .kPoll => Sys2Proof.Machine.execKPoll s
  | .kIack => Sys2Proof.Machine.execKIack s
  | .kIsSync => Sys2Proof.Machine.execKIsSync s
  | .kGet => Sys2Proof.Machine.execKGet s
  | .kSet snap => Sys2Proof.Machine.execKSet snap s
  | .tReset => Sys2Proof.Machine.execTReset s
  | .tRaise => Sys2Proof.Machine.execTRaise s
  | .tPoll => Sys2Proof.Machine.execTPoll s
  | .tIack => Sys2Proof.Machine.execTIack s
  | .tIsSync => Sys2Proof.Machine.execTIsSync s
  | .tGet => Sys2Proof.Machine.execTGet s
  | .tSet snap => Sys2Proof.Machine.execTSet snap s
  | .tFrame => Sys2Proof.Machine.execTFrame s
  | .tFrameSwap => Sys2Proof.Machine.execTFrameSwap s

end Sys2Proof.Machine
end

