-- ==== Sys2Proof/Machine/Ports.lean ====
section
/-! DEFINITION. The ports: what one move of the environment does to the machine (R68, R157), and the continuous
outputs. -/

namespace Sys2Proof.Machine

/-! ## Continuous outputs (R68, R152) -/

/-- The latch of a device. -/
def State.latch (s : State) : Device → Latch
  | .kbd => s.k.latch
  | .tda => s.t.latch

/-- The output `irq`: the flag of `DoesInterrupt` (R152). -/
def irqLine (d : Device) (s : State) : Bool :=
  (s.latch d).reports

/-- The output `irq_msg`: the message, whether or not the flag is set (R152). -/
def irqMsgLine (d : Device) (s : State) : Word :=
  (s.latch d).msg

/-- The output `sync_dev`, constant 0 (R68, R105). -/
def syncDevLine (_ : Device) (_ : State) : Bool :=
  false

/-! ## Several strobes in one step (R157) -/

/-- The request `r`, if its line is active. -/
def ifActive (on : Bool) (r : Request) : List Request :=
  if on then [r] else []

/-- The reads of one sampled step: they see the state before the step (R157), so they come first. -/
def sampledReads (d : Device) (p : PortLines) : List Request :=
  ifActive p.snapGet (active d .snapGet)
    ++ ifActive (p.busEn && !p.busWe) (busRead d p.busSlot)
    ++ ifActive p.irqRead (active d .irq)
    ++ ifActive p.syncRead (active d .syncDev)

/-- The snapshot presented with `snap_set`, as a request. -/
def snapSetRequests (d : Device) : Option Snapshot → List Request
  | some snap => [active d (.snapSet snap)]
  | none => []

/-- The writes of one sampled step that come before its frame, in the order of R157: after a `Reset` nothing else
happens; else `SetState`, the bus write, `IACK`, `RaiseInt`. -/
def sampledWrites (d : Device) (p : PortLines) : List Request :=
  if p.rst then [active d .rst]
  else
    snapSetRequests d p.snapSet
      ++ ifActive (p.busEn && p.busWe) (busWrite d p.busSlot p.busWdata)
      ++ ifActive p.iack (active d .iack)
      ++ ifActive p.intSet (active d .intSet)

/-- The frame of one sampled step, the last operation of R157's order: none after a `Reset`, and none on the keyboard,
which has no frame lines (R68). -/
def sampledFrame (d : Device) (p : PortLines) : Option Instr :=
  match d with
  | .kbd => none
  | .tda => if p.frameReq && !p.rst then some (if p.frameSwap then .tFrameSwap else .tFrame) else none

/-- What the frame of a sampled step does. If its `Capture` is refused the frame alone is refused "and no state changes"
(R111, R122): the operations before it have their effect (R157). -/
def runSampledFrame (frame : Option Instr) (s : State) : Host.Outcome State Fault Refusal :=
  match frame with
  | none => .next s
  | some i =>
    match exec i s with
    | .refused _ => .next s
    | out => out

/-! ## One move of the environment -/

/-- The operation of one request (R4: one operation, atomic). -/
def runRequest (r : Request) (s : State) : Host.Outcome State Fault Refusal :=
  match decode r with
  | .ok i => exec i s
  | .error why => .refused (.undecodable why)

/-- Requests one after another; the first that stops stops the step. -/
def runRequests : List Request → State → Host.Outcome State Fault Refusal
  | [], s => .next s
  | r :: rs, s =>
    match runRequest r s with
    | .next s' => runRequests rs s'
    | .fault f => .fault f
    | .refused why => .refused why

/-- Several strobes of one device in one step (R157): the reads, the writes, the frame. -/
def runSample (d : Device) (p : PortLines) (s : State) : Host.Outcome State Fault Refusal :=
  match runRequests (sampledReads d p ++ sampledWrites d p) s with
  | .next t => runSampledFrame (sampledFrame d p) t
  | .fault f => .fault f
  | .refused why => .refused why

/-- The bus address of a slot, by `REG_MAP` (R54). -/
def slotAddress (m : RegMap) (d : Device) (slot : BitVec 3) : Nat :=
  match d with
  | .kbd => m.kbd.get slot.toFin
  | .tda => m.tda.get slot.toFin

/-- The slots of the two register ports (R64). -/
def allSlots : List (Device × BitVec 3) :=
  [(.kbd, 0#3), (.kbd, 1#3), (.kbd, 2#3), (.kbd, 3#3), (.kbd, 4#3), (.kbd, 5#3), (.kbd, 6#3), (.kbd, 7#3),
    (.tda, 0#3), (.tda, 1#3), (.tda, 2#3), (.tda, 3#3), (.tda, 4#3), (.tda, 5#3), (.tda, 6#3), (.tda, 7#3)]

/-- The slots at a bus address. -/
def slotsAt (m : RegMap) (addr : Nat) : List (Device × BitVec 3) :=
  allSlots.filter fun p => slotAddress m p.1 p.2 == addr

/-- A bus transaction on a slot (R64). -/
def busTransaction (d : Device) (slot : BitVec 3) (we : Bool) (wdata : Word) : Request :=
  if we then busWrite d slot wdata else busRead d slot

/-- An access at a bus address is the transaction on the slot there. At an address of no slot it starts no operation,
and the block does nothing (R4); the spec does not say which of two slots at one address answers (log 15). -/
def runBusAccess (addr : Nat) (we : Bool) (wdata : Word) (s : State) : Host.Outcome State Fault Refusal :=
  match slotsAt s.params.regMap addr with
  | [] => .next s
  | [p] => runRequest (busTransaction p.1 p.2 we wdata) s
  | _ => .refused (.addressShared addr)

/-- What one move of the environment does. -/
def runInput (input : Input) (s : State) : Host.Outcome State Fault Refusal :=
  match input with
  | .request r => runRequest r s
  | .sample d p => runSample d p s
  | .busAccess addr we wdata => runBusAccess addr we wdata s
  | .cpuWrite a v => cpuWrite a v s

end Sys2Proof.Machine
end

