-- ==== Sys2Proof/Machine/Step.lean ====
section
/-! DEFINITION. One step: the environment's next move (log 1). The block itself has no program counter and fetches
nothing (R28). -/

namespace Sys2Proof.Machine

/-- One step takes the first move of the schedule and carries it out; with nothing scheduled nothing happens, since
the block "never acts on its own" (R4). -/
def step (s : State) : Host.Outcome State Fault Refusal :=
  match s.inputs with
  | [] => .next s
  | input :: rest => runInput input (s.setInputs rest)

/-- The state whose next step runs the instruction of an opcode-table word: its request is scheduled first (log 1,
log 7). A word that no row of the table numbers changes nothing. -/
def State.withFetchWord (s : State) (nbits w : Nat) : State :=
  match tableRequest nbits w with
  | some r => s.setInputs (.request r :: s.inputs)
  | none => s

end Sys2Proof.Machine
end

