-- ==== Sys2Proof/Safety.lean ====
section
/-! DEFINITION. What the claims speak of: runs of operations, the invariants of R31, and when a frame has a meaning. -/

namespace Sys2Proof.Machine

/-- Operations one after another, in the total order of R51; the first that stops stops the run. -/
def runInstrs : List Instr → State → Host.Outcome State Fault Refusal
  | [], s => .next s
  | i :: is, s =>
    match exec i s with
    | .next s' => runInstrs is s'
    | .fault f => .fault f
    | .refused why => .refused why

/-- The invariant of the model: the queue is within its capacity (R14, R31 (i)), the parameters keep their
constraints (R3), and both memories are canonical and hold no byte outside their size (R41). -/
def Inv (s : State) : Prop :=
  s.k.q.length ≤ s.params.bsize ∧ s.params.wf
    ∧ s.ram.wf ∧ s.ram.bounded s.params.ramSize
    ∧ s.rom.wf ∧ s.rom.bounded s.params.romSize

/-- Every queued event has bits 31:27 zero (R31 (ii)). -/
def EventsPacked (s : State) : Prop :=
  ∀ ev ∈ s.k.q, ev.extractLsb' 27 5 = 0#5

/-- The mapped pointers are unmapped or fit, and the flags are the bits of `T.e` (R31 (iv)). -/
def TdaCoherent (s : State) : Prop :=
  (s.t.bufferPtr = 0#32 ∨ s.t.bufferPtr.toNat + 2400 ≤ s.params.ramSize)
    ∧ (s.t.fontPtr = 0#32 ∨ fontRegion s.params s.t.fontPtr ≠ none)
    ∧ s.t.cursor = s.t.e.getLsbD 11 ∧ s.t.blink = s.t.e.getLsbD 7

/-- None of the three cases in which `Capture` is refused (R111). -/
def FrameUsable (s : State) : Prop :=
  s.t.bufferPtr ≠ 0#32 ∧ s.t.bufferPtr.toNat + 2400 ≤ s.params.ramSize
    ∧ (s.t.fontPtr = 0#32 ∨ fontRegion s.params s.t.fontPtr ≠ none)

/-- A step is safe when it raises no fault. -/
def StepSafe (s : State) : Prop :=
  ∀ f, step s ≠ .fault f

end Sys2Proof.Machine
end

