-- ==== Sys2Proof/Certificates/Slice0/Obligations.lean ====
section
/-! DEFINITION. The statements for the provers. Each says in its docstring which rule of the spec it formalises, or
that it states a choice of the model. -/

open Sys2Proof Sys2Proof.Machine

/-! ## Step, decode, encode -/

/-- The model's schedule (log 1) with R4 and R60: a step whose next move is a request that decodes to `i` is `exec i`
with that move taken off the schedule, and `i` is well formed. -/
def Obligations.StepRunsTheDecodedRequest : Prop :=
  ∀ (s : State) (r : Request) (rest : List Input) (i : Instr),
    s.inputs = .request r :: rest → decode r = .ok i →
      i.wellFormed = true ∧ step s = exec i { s with inputs := rest }

/-- R4, "it never acts on its own": with nothing scheduled (log 1) a step changes nothing. -/
def Obligations.EmptyScheduleIsIdle : Prop :=
  ∀ s : State, s.inputs = [] → step s = .next s

/-- The model's choice (log 8): a request that is no operation of the block is refused with the decoder's reason. -/
def Obligations.UndecodableRequestIsRefused : Prop :=
  ∀ (s : State) (r : Request) (rest : List Input) (why : DecodeError),
    s.inputs = .request r :: rest → decode r = .error why → step s = .refused (.undecodable why)

/-- The model's choice (log 1, log 7): the state `withFetchWord` makes runs the instruction of an opcode-table word
next, and leaves the rest of the state alone. -/
def Obligations.FetchedTableWordRuns : Prop :=
  ∀ (s : State) (nbits w : Nat) (i : Instr),
    decodeTableWord nbits w = some i → step (s.withFetchWord nbits w) = exec i s

/-- R61, R62, R64, R68, R70: decoding the encoding of any well-formed instruction gives it back, every operand at
every value. -/
def Obligations.DecodeInvertsEncode : Prop :=
  ∀ i : Instr, i.wellFormed = true → decode (encode i) = .ok i

/-- R60, "a decoder takes the device as well as the word": what decodes is well formed and runs on the device the
request names. -/
def Obligations.DecodedRunsOnItsDevice : Prop :=
  ∀ (i : Instr),
    (∀ (d : Device) (code : Word), decode (.cmd d code) = .ok i → i.wellFormed = true ∧ i.device = d)
      ∧ (∀ (d : Device) (pattern : Byte) (wdata : Word),
          decode (.bus d pattern wdata) = .ok i → i.wellFormed = true ∧ i.device = d)
      ∧ (∀ (d : Device) (line : Strobe) (pattern : BitVec 2),
          decode (.strobe d line pattern) = .ok i → i.wellFormed = true ∧ i.device = d)

/-- R61 and R62: the command maps of the two devices, every one of the 65536 words of each. -/
def Obligations.CommandMaps : Prop :=
  (decode (.cmd .kbd 0x0000#16) = .ok .kClrBuffer ∧ decode (.cmd .kbd 0x0001#16) = .ok .kPullKey
    ∧ decode (.cmd .kbd 0x0002#16) = .ok .kPushKey ∧ decode (.cmd .kbd 0x0003#16) = .ok .kSetInt
    ∧ ∀ code : Word, 0x0004 ≤ code.toNat → decode (.cmd .kbd code) = .ok (.kUnrecognized code))
  ∧ (decode (.cmd .tda 0x0000#16) = .ok .tMapBuffer ∧ decode (.cmd .tda 0x0001#16) = .ok .tMapFont
    ∧ decode (.cmd .tda 0x0002#16) = .ok .tSetInt
    ∧ ∀ code : Word, 0x0003 ≤ code.toNat → decode (.cmd .tda code) = .ok (.tUnrecognized code))

/-- Words of every format, written out from R61, R62, R64 and R68, decode to the instructions they stand for. -/
def Obligations.SampleWordsDecode : Prop :=
  decode (.cmd .kbd 0b0000000000000010#16) = .ok .kPushKey
    ∧ decode (.cmd .tda 0b0000000000000001#16) = .ok .tMapFont
    ∧ decode (.cmd .tda 0b0000000000000011#16) = .ok (.tUnrecognized 3#16)
    ∧ decode (.bus .kbd 0b1001#8 0x0041#16) = .ok (.kWrA 0x0041#16)
    ∧ decode (.bus .kbd 0b0011#8 0#16) = .ok .kRdC
    ∧ decode (.bus .tda 0b1101#8 0x0FEE#16) = .ok (.tWrE 0x0FEE#16)
    ∧ decode (.bus .tda 0b1111#8 0xFFFF#16) = .ok (.tWrReserved 7#3 0xFFFF#16)
    ∧ decode (.strobe .kbd .iack 0b01#2) = .ok .kIack
    ∧ decode (.strobe .tda .frame 0b10#2) = .ok .tFrame
    ∧ decode (.strobe .tda .frame 0b11#2) = .ok .tFrameSwap

/-- The strobes of one device sampled in one step, in R157's order: `Reset` skips the rest, `GetState` and the outputs
read the state before the step, and the frame comes last. The step always completes: where the frame is refused, the
frame alone is, and the operations before it have their effect (R122, "no state changes"). One clause is the model's, not
the rule's: the reads, a `RegRead` of the bus among them, act first even when `rst` is active (log 13, DEDUCED). `rd` and
`wr` are the bus transaction's operation. -/
def Obligations.SampledStrobesActInOrder : Prop :=
  ∀ (s : State) (p : PortLines) (rest : List Input) (snap : Snapshot), snap.wellFormed = true →
    (p.snapSet = none ∨ p.snapSet = some snap) →
    (∀ rd wr : Instr, s.inputs = .sample .kbd p :: rest →
      decode (.bus .kbd (p.busSlot.setWidth 8) 0#16) = .ok rd →
      decode (.bus .kbd (8#8 + p.busSlot.setWidth 8) p.busWdata) = .ok wr →
      ∃ t : State,
        runInstrs
          ((if p.snapGet then [.kGet] else []) ++ (if p.busEn && !p.busWe then [rd] else [])
            ++ (if p.irqRead then [.kPoll] else []) ++ (if p.syncRead then [.kIsSync] else [])
            ++ (if p.rst then [.kReset]
                else (if p.snapSet = none then [] else [.kSet snap])
                  ++ (if p.busEn && p.busWe then [wr] else [])
                  ++ (if p.iack then [.kIack] else []) ++ (if p.intSet then [.kRaise] else [])))
          { s with inputs := rest } = .next t
        ∧ step s = .next t)
    ∧ (∀ rd wr : Instr, s.inputs = .sample .tda p :: rest →
      decode (.bus .tda (p.busSlot.setWidth 8) 0#16) = .ok rd →
      decode (.bus .tda (8#8 + p.busSlot.setWidth 8) p.busWdata) = .ok wr →
      ∃ t : State,
        runInstrs
          ((if p.snapGet then [.tGet] else []) ++ (if p.busEn && !p.busWe then [rd] else [])
            ++ (if p.irqRead then [.tPoll] else []) ++ (if p.syncRead then [.tIsSync] else [])
            ++ (if p.rst then [.tReset]
                else (if p.snapSet = none then [] else [.tSet snap])
                  ++ (if p.busEn && p.busWe then [wr] else [])
                  ++ (if p.iack then [.tIack] else []) ++ (if p.intSet then [.tRaise] else [])))
          { s with inputs := rest } = .next t
        ∧ ((p.rst = true ∨ p.frameReq = false) → step s = .next t)
        ∧ (p.rst = false → p.frameReq = true →
          (∀ u : State, exec (if p.frameSwap then .tFrameSwap else .tFrame) t = .next u → step s = .next u)
          ∧ (∀ why : Refusal, exec (if p.frameSwap then .tFrameSwap else .tFrame) t = .refused why →
            step s = .next t)))

/-! ## Register access -/

/-- R80, R81: the bus encodings of `RegWrite` to slots 1 to 5, what it writes on each device, and that it writes
nothing else. -/
def Obligations.RegisterWritesStore : Prop :=
  ∀ (s : State) (v : Word),
    (decode (.bus .kbd 0b1001#8 v) = .ok (.kWrA v) ∧ exec (.kWrA v) s = .next { s with k := { s.k with a := v } })
    ∧ (decode (.bus .kbd 0b1010#8 v) = .ok (.kWrB v) ∧ exec (.kWrB v) s = .next { s with k := { s.k with b := v } })
    ∧ (decode (.bus .kbd 0b1011#8 v) = .ok (.kWrC v) ∧ exec (.kWrC v) s = .next { s with k := { s.k with c := v } })
    ∧ (decode (.bus .kbd 0b1100#8 v) = .ok (.kWrD v) ∧ exec (.kWrD v) s = .next s)
    ∧ (decode (.bus .kbd 0b1101#8 v) = .ok (.kWrE v) ∧ exec (.kWrE v) s = .next s)
    ∧ (decode (.bus .tda 0b1001#8 v) = .ok (.tWrA v) ∧ exec (.tWrA v) s = .next { s with t := { s.t with a := v } })
    ∧ (decode (.bus .tda 0b1010#8 v) = .ok (.tWrB v) ∧ exec (.tWrB v) s = .next { s with t := { s.t with b := v } })
    ∧ (decode (.bus .tda 0b1011#8 v) = .ok (.tWrC v) ∧ exec (.tWrC v) s = .next s)
    ∧ (decode (.bus .tda 0b1100#8 v) = .ok (.tWrD v) ∧ exec (.tWrD v) s = .next { s with t := { s.t with d := v } })
    ∧ (decode (.bus .tda 0b1101#8 v) = .ok (.tWrE v)
      ∧ exec (.tWrE v) s
        = .next { s with t := { s.t with e := v, cursor := v.getLsbD 11, blink := v.getLsbD 7 } })

/-- R82: the bus encodings of `RegRead` of slots 1 to 5 (whatever the data lines hold), what it returns on each device,
and that it changes nothing else. -/
def Obligations.RegisterReadsReturn : Prop :=
  ∀ (s : State) (w : Word),
    (decode (.bus .kbd 0b0001#8 w) = .ok .kRdA
      ∧ exec .kRdA s = .next { s with kOut := { s.kOut with rdata := some s.k.a } })
    ∧ (decode (.bus .kbd 0b0010#8 w) = .ok .kRdB
      ∧ exec .kRdB s = .next { s with kOut := { s.kOut with rdata := some s.k.b } })
    ∧ (decode (.bus .kbd 0b0011#8 w) = .ok .kRdC
      ∧ exec .kRdC s = .next { s with kOut := { s.kOut with rdata := some s.k.c } })
    ∧ (decode (.bus .kbd 0b0100#8 w) = .ok .kRdD
      ∧ exec .kRdD s = .next { s with kOut := { s.kOut with rdata := some 0#16 } })
    ∧ (decode (.bus .kbd 0b0101#8 w) = .ok .kRdE
      ∧ exec .kRdE s = .next { s with kOut := { s.kOut with rdata := some 0#16 } })
    ∧ (decode (.bus .tda 0b0001#8 w) = .ok .tRdA
      ∧ exec .tRdA s = .next { s with tOut := { s.tOut with rdata := some s.t.a } })
    ∧ (decode (.bus .tda 0b0010#8 w) = .ok .tRdB
      ∧ exec .tRdB s = .next { s with tOut := { s.tOut with rdata := some s.t.b } })
    ∧ (decode (.bus .tda 0b0011#8 w) = .ok .tRdC
      ∧ exec .tRdC s = .next { s with tOut := { s.tOut with rdata := some 0#16 } })
    ∧ (decode (.bus .tda 0b0100#8 w) = .ok .tRdD
      ∧ exec .tRdD s = .next { s with tOut := { s.tOut with rdata := some s.t.d } })
    ∧ (decode (.bus .tda 0b0101#8 w) = .ok .tRdE
      ∧ exec .tRdE s = .next { s with tOut := { s.tOut with rdata := some s.t.e } })

/-- R83: a write of slot 0 performs the command its word decodes to, whatever the word, and completes; a read of slot
0 returns 0 and has no other effect. -/
def Obligations.CommandSlotSendsCommands : Prop :=
  ∀ (s : State) (w : Word),
    (decode (.bus .kbd 0b1000#8 w) = .ok (.kWrCmd w)
      ∧ ∃ (i : Instr) (t : State), decode (.cmd .kbd w) = .ok i ∧ exec i s = .next t ∧ exec (.kWrCmd w) s = .next t)
    ∧ (decode (.bus .tda 0b1000#8 w) = .ok (.tWrCmd w)
      ∧ ∃ (i : Instr) (t : State), decode (.cmd .tda w) = .ok i ∧ exec i s = .next t ∧ exec (.tWrCmd w) s = .next t)
    ∧ (decode (.bus .kbd 0b0000#8 w) = .ok .kRdCmd
      ∧ exec .kRdCmd s = .next { s with kOut := { s.kOut with rdata := some 0#16 } })
    ∧ (decode (.bus .tda 0b0000#8 w) = .ok .tRdCmd
      ∧ exec .tRdCmd s = .next { s with tOut := { s.tOut with rdata := some 0#16 } })

/-- R84: slots 6 and 7 of both devices ignore writes and read 0, each as its four-bit pattern decodes. -/
def Obligations.ReservedSlotsAreInert : Prop :=
  ∀ (s : State) (slot : BitVec 3) (v : Word), (slot = 6#3 ∨ slot = 7#3) →
    decode (.bus .kbd (8#8 + slot.setWidth 8) v) = .ok (.kWrReserved slot v)
    ∧ decode (.bus .tda (8#8 + slot.setWidth 8) v) = .ok (.tWrReserved slot v)
    ∧ decode (.bus .kbd (slot.setWidth 8) v) = .ok (.kRdReserved slot)
    ∧ decode (.bus .tda (slot.setWidth 8) v) = .ok (.tRdReserved slot)
    ∧ exec (.kWrReserved slot v) s = .next s
    ∧ exec (.tWrReserved slot v) s = .next s
    ∧ exec (.kRdReserved slot) s = .next { s with kOut := { s.kOut with rdata := some 0#16 } }
    ∧ exec (.tRdReserved slot) s = .next { s with tOut := { s.tOut with rdata := some 0#16 } }

/-! ## Keyboard commands -/

/-- R91: `CLR_BUFFER`, command word 0, empties the queue and changes nothing else. -/
def Obligations.ClrBufferEmptiesQueue : Prop :=
  ∀ s : State, decode (.cmd .kbd 0x0000#16) = .ok .kClrBuffer
    ∧ exec .kClrBuffer s = .next { s with k := { s.k with q := [] } }

/-- R92: `PULL_KEY`, command word 1, takes the back of the queue and unpacks it into the registers; on an empty queue
it zeroes them; it changes nothing else. -/
def Obligations.PullKeyTakesTheOldest : Prop :=
  ∀ s : State,
    decode (.cmd .kbd 0x0001#16) = .ok .kPullKey
    ∧ (∀ (q : List Event) (ev : Event), s.k.q = q ++ [ev] →
      exec .kPullKey s = .next
        { s with k := { s.k with
            q := q
            a := (ev.extractLsb' 16 8).setWidth 16
            b := ev.extractLsb' 0 16
            c := (ev.extractLsb' 24 3).setWidth 16 } })
    ∧ (s.k.q = [] → exec .kPullKey s = .next { s with k := { s.k with a := 0#16, b := 0#16, c := 0#16 } })

/-- R93: `PUSH_KEY`, command word 2, adds the packed event at the front when there is room, and changes nothing when there is none. -/
def Obligations.PushKeyAddsAtTheFront : Prop :=
  ∀ s : State, decode (.cmd .kbd 0x0002#16) = .ok .kPushKey ∧ ∃ ev : Event,
    ev.toNat = 2 ^ 24 * (s.k.c.toNat % 8) + 2 ^ 16 * (s.k.a.toNat % 256) + s.k.b.toNat
    ∧ (s.k.q.length < s.params.bsize →
        exec .kPushKey s = .next { s with k := { s.k with q := ev :: s.k.q } })
    ∧ (s.params.bsize ≤ s.k.q.length → exec .kPushKey s = .next s)

/-- R94: `SET_INT` on the keyboard, command word 3, copies register `a` into the message and changes nothing else. -/
def Obligations.KbdSetIntCopiesA : Prop :=
  ∀ s : State, decode (.cmd .kbd 0x0003#16) = .ok .kSetInt
    ∧ exec .kSetInt s = .next { s with k := { s.k with latch := { s.k.latch with msg := s.k.a } } }

/-- R95, R104: an unrecognized command word changes no state element, on either device. -/
def Obligations.UnrecognizedCommandsAreNoOps : Prop :=
  ∀ (s : State) (code : Word),
    (0x0004 ≤ code.toNat →
      decode (.cmd .kbd code) = .ok (.kUnrecognized code) ∧ exec (.kUnrecognized code) s = .next s)
    ∧ (0x0003 ≤ code.toNat →
      decode (.cmd .tda code) = .ok (.tUnrecognized code) ∧ exec (.tUnrecognized code) s = .next s)

/-- R67: the fields of `pack` and of `unpack` as numbers, and the three laws that tie them. -/
def Obligations.PackAndUnpackAgree : Prop :=
  (∀ a b c : Word, (pack a b c).toNat = 2 ^ 24 * (c.toNat % 8) + 2 ^ 16 * (a.toNat % 256) + b.toNat)
  ∧ (∀ ev : Event, (eventKeycode ev).toNat = ev.toNat / 2 ^ 16 % 2 ^ 8 ∧ (eventScancode ev).toNat = ev.toNat % 2 ^ 16
      ∧ (eventStatus ev).toNat = ev.toNat / 2 ^ 24 % 2 ^ 3)
  ∧ (∀ a b c : Word,
    eventKeycode (pack a b c) = a &&& 0x00FF#16 ∧ eventScancode (pack a b c) = b
      ∧ eventStatus (pack a b c) = c &&& 0x0007#16)
  ∧ (∀ ev : Event, pack (eventKeycode ev) (eventScancode ev) (eventStatus ev) = ev &&& 0x07FFFFFF#32)
  ∧ (∀ a b c a' b' c' : Word, pack a b c = pack a' b' c' →
      a.extractLsb' 0 8 = a'.extractLsb' 0 8 ∧ b = b' ∧ c.extractLsb' 0 3 = c'.extractLsb' 0 3)

/-- The property "FIFO" of `41_keyboard_commands.md` (R92, R93): events pushed into an empty queue, at most `BSIZE` of
them, are pulled in the order of their pushes, and a further pull gives zeros. An event is a triple `(a, b, c)` of
register values written before the push; the pull gives its low 8, 16 and 3 bits. -/
def Obligations.KeyQueueIsFifo : Prop :=
  ∀ (s : State) (evs : List (Word × Word × Word)), s.k.q = [] → evs.length ≤ s.params.bsize →
    (∀ (before after : List (Word × Word × Word)) (a b c : Word), evs = before ++ (a, b, c) :: after →
      ∃ t : State,
        runInstrs (evs.flatMap (fun e => [.kWrA e.1, .kWrB e.2.1, .kWrC e.2.2, .kPushKey])
          ++ List.replicate (before.length + 1) .kPullKey) s = .next t
        ∧ t.k.a = a &&& 0x00FF#16 ∧ t.k.b = b ∧ t.k.c = c &&& 0x0007#16)
    ∧ ∃ t : State,
        runInstrs (evs.flatMap (fun e => [.kWrA e.1, .kWrB e.2.1, .kWrC e.2.2, .kPushKey])
          ++ List.replicate (evs.length + 1) .kPullKey) s = .next t
        ∧ t.k.q = [] ∧ t.k.a = 0#16 ∧ t.k.b = 0#16 ∧ t.k.c = 0#16

/-- The property "Bound" of `41_keyboard_commands.md` (R14, R93): after any number of pushes into an empty queue it
holds the first `BSIZE` of the events, and the later ones are lost. -/
def Obligations.OverflowKeepsTheFirstEvents : Prop :=
  ∀ (s : State) (evs : List (Word × Word × Word)), s.k.q = [] →
    ∃ t : State,
      runInstrs (evs.flatMap (fun e => [.kWrA e.1, .kWrB e.2.1, .kWrC e.2.2, .kPushKey])) s = .next t
      ∧ t.k.q = ((evs.take s.params.bsize).map (fun e => pack e.1 e.2.1 e.2.2)).reverse
      ∧ t.k.q.length ≤ s.params.bsize

/-! ## TDA commands -/

/-- R101: `MAP_BUFFER`, command word 0, commits `(b << 16) | a` exactly when that plus 2400 is within RAM, and changes nothing else. -/
def Obligations.MapBufferCommitsIffItFits : Prop :=
  ∀ s : State, decode (.cmd .tda 0x0000#16) = .ok .tMapBuffer
    ∧ ∃ p : Pointer, p.toNat = 2 ^ 16 * s.t.b.toNat + s.t.a.toNat
    ∧ (p.toNat + 2400 ≤ s.params.ramSize → exec .tMapBuffer s = .next { s with t := { s.t with bufferPtr := p } })
    ∧ (s.params.ramSize < p.toNat + 2400 → exec .tMapBuffer s = .next s)

/-- R102: `MAP_FONT`, command word 1, commits `(b << 16) | a`, unchanged, when 2048 bytes from it fit RAM, or else fit ROM behind
`ROM_BASE`; otherwise it changes nothing. -/
def Obligations.MapFontCommitsIffItFits : Prop :=
  ∀ s : State, decode (.cmd .tda 0x0001#16) = .ok .tMapFont
    ∧ ∃ p : Pointer, p.toNat = 2 ^ 16 * s.t.b.toNat + s.t.a.toNat
    ∧ ((p.toNat + 2048 ≤ s.params.ramSize
          ∨ (s.params.romBase ≤ p.toNat ∧ p.toNat - s.params.romBase + 2048 ≤ s.params.romSize)) →
        exec .tMapFont s = .next { s with t := { s.t with fontPtr := p } })
    ∧ ((s.params.ramSize < p.toNat + 2048
          ∧ (p.toNat < s.params.romBase ∨ s.params.romSize < p.toNat - s.params.romBase + 2048)) →
        exec .tMapFont s = .next s)

/-- R103: `SET_INT` on the TDA, command word 2, copies register `a` into the message and changes nothing else. -/
def Obligations.TdaSetIntCopiesA : Prop :=
  ∀ s : State, decode (.cmd .tda 0x0002#16) = .ok .tSetInt
    ∧ exec .tSetInt s = .next { s with t := { s.t with latch := { s.t.latch with msg := s.t.a } } }

/-- R105: `IsSyncDev` returns false on both devices and reads and writes no state; the output `sync_dev` is 0. -/
def Obligations.NoDeviceIsASyncDevice : Prop :=
  ∀ s : State,
    exec .kIsSync s = .next { s with kOut := { s.kOut with sync := some false } }
    ∧ exec .tIsSync s = .next { s with tOut := { s.tOut with sync := some false } }
    ∧ syncDevLine .kbd s = false ∧ syncDevLine .tda s = false

/-! ## The rasterizer -/

/-- R111: the three cases in which `Capture`, and so the frame (R122), is refused, each under its own name. -/
def Obligations.FrameRefusedWithUnusablePointers : Prop :=
  ∀ s : State,
    (s.t.bufferPtr = 0#32 →
      capture s = .error .bufferUnmapped ∧ exec .tFrame s = .refused .bufferUnmapped
        ∧ exec .tFrameSwap s = .refused .bufferUnmapped)
    ∧ (s.t.bufferPtr ≠ 0#32 → s.params.ramSize < s.t.bufferPtr.toNat + 2400 →
      capture s = .error .bufferUnfit ∧ exec .tFrame s = .refused .bufferUnfit
        ∧ exec .tFrameSwap s = .refused .bufferUnfit)
    ∧ (s.t.bufferPtr ≠ 0#32 → s.t.bufferPtr.toNat + 2400 ≤ s.params.ramSize →
      s.t.fontPtr ≠ 0#32 → s.params.ramSize < s.t.fontPtr.toNat + 2048 →
      (s.t.fontPtr.toNat < s.params.romBase
        ∨ s.params.romSize < s.t.fontPtr.toNat - s.params.romBase + 2048) →
      capture s = .error .fontUnfit ∧ exec .tFrame s = .refused .fontUnfit
        ∧ exec .tFrameSwap s = .refused .fontUnfit)

/-- R119, R122: the frame's strobes; a frame is refused where its `Capture` is; with usable pointers `FRAME` is
`Capture` then `Render` and `FRAME.SWAP` is `Capture` then `RenderSwapped`; each advances the blink counter once,
modulo 16, whatever the cursor's state, and changes nothing else. -/
def Obligations.FrameCompletesWithUsablePointers : Prop :=
  decode (.strobe .tda .frame 0b10#2) = .ok .tFrame ∧ decode (.strobe .tda .frame 0b11#2) = .ok .tFrameSwap
  ∧ ∀ s : State,
    (∀ why : Refusal, capture s = .error why →
      exec .tFrame s = .refused why ∧ exec .tFrameSwap s = .refused why)
    ∧ (s.t.bufferPtr ≠ 0#32 → s.t.bufferPtr.toNat + 2400 ≤ s.params.ramSize →
      (s.t.fontPtr = 0#32 ∨ s.t.fontPtr.toNat + 2048 ≤ s.params.ramSize
        ∨ (s.params.romBase ≤ s.t.fontPtr.toNat
            ∧ s.t.fontPtr.toNat - s.params.romBase + 2048 ≤ s.params.romSize)) →
      ∃ (scr : Screen) (ctr : BitVec 4), capture s = .ok scr ∧ ctr.toNat = (s.t.blinkCtr.toNat + 1) % 16
        ∧ exec .tFrame s = .next
            { s with
              t := { s.t with blinkCtr := ctr }
              tOut := { s.tOut with frame := some (renderPixels s.params scr s.t.blinkCtr) } }
        ∧ exec .tFrameSwap s = .next
            { s with
              t := { s.t with blinkCtr := ctr }
              tOut := { s.tOut with frame := some (renderSwappedPixels s.params scr s.t.blinkCtr) } })

/-- R110 with R45, R46, R20, R21: the screen of a `Capture` that is not refused. -/
def Obligations.CaptureReadsTextFontAndCursor : Prop :=
  ∀ (s : State) (scr : Screen), capture s = .ok scr →
    (∀ r c : Nat, r < 30 → c < 40 →
      (scr.cell r c).toNat = (s.readRam (s.t.bufferPtr.toNat + 2 * (40 * r + c))).toNat
        + 2 ^ 8 * (s.readRam (s.t.bufferPtr.toNat + 2 * (40 * r + c) + 1)).toNat)
    ∧ (∀ k : Nat, k < 2048 →
        (s.t.fontPtr = 0#32 → some (scr.fontByte k) = s.params.fontRom.toList[k]?)
        ∧ (s.t.fontPtr ≠ 0#32 → s.t.fontPtr.toNat + 2048 ≤ s.params.ramSize →
            scr.fontByte k = s.readRam (s.t.fontPtr.toNat + k))
        ∧ (s.t.fontPtr ≠ 0#32 → s.params.ramSize < s.t.fontPtr.toNat + 2048 →
            scr.fontByte k = s.readRom (s.t.fontPtr.toNat - s.params.romBase + k)))
    ∧ (scr.userFont = true ↔ s.t.fontPtr ≠ 0#32)
    ∧ scr.enabled = s.t.cursor ∧ scr.blinkEnabled = s.t.blink
    ∧ scr.row.toNat = s.t.d.toNat / 2 ^ 8 ∧ scr.col.toNat = s.t.d.toNat % 2 ^ 8
    ∧ scr.scanlineStart.toNat = s.t.e.toNat / 2 ^ 4 % 8 ∧ scr.scanlineEnd.toNat = s.t.e.toNat / 2 ^ 8 % 8
    ∧ scr.color.toNat = s.t.e.toNat % 16

/-- R113 to R118: `Render` gives 76800 pixels; pixel `(x, y)` of cell `(r, c)`, at address
`(x + 8*c) + 320*(y + 8*r)`, is the cursor's colour in its rectangle when the cursor is visible and its phase is on,
and else the cell's foreground or background colour by bit `7 - x` of row `y` of its glyph. The phase of a frame is read
from the counter before the frame advances it. -/
def Obligations.RenderDrawsCellsAndCursor : Prop :=
  (∀ (ps : Params) (scr : Screen) (ctr : BitVec 4),
    (renderPixels ps scr ctr).length = 76800
    ∧ ∀ r c y x : Nat, r < 30 → c < 40 → y < 8 → x < 8 →
      (renderPixels ps scr ctr)[(x + 8 * c) + 320 * (y + 8 * r)]? =
        ps.palette.toList[
          if (scr.enabled = true ∧ scr.scanlineStart.toNat ≤ scr.scanlineEnd.toNat
                ∧ scr.row.toNat < 30 ∧ scr.col.toNat < 40)
              ∧ (scr.blinkEnabled = false ∨ ctr.toNat < 8)
              ∧ r = scr.row.toNat ∧ c = scr.col.toNat
              ∧ scr.scanlineStart.toNat ≤ y ∧ y ≤ scr.scanlineEnd.toNat
          then scr.color.toNat
          else if (scr.fontByte (8 * ((scr.cell r c).toNat % 2 ^ 8) + y)).toNat.testBit (7 - x) = true
          then (scr.cell r c).toNat / 2 ^ 8 % 16
          else (scr.cell r c).toNat / 2 ^ 12]?)
  ∧ ∀ (s t : State) (scr : Screen), capture s = .ok scr → exec .tFrame s = .next t →
    t.tOut.frame = some (renderPixels s.params scr s.t.blinkCtr)

/-- R120: the swapped frame is the direct frame with byte lanes 0 and 2 of every pixel exchanged and the others
untouched, with the same one counter update; exchanging twice restores a pixel. -/
def Obligations.SwappedFrameExchangesRedAndBlue : Prop :=
  (∀ (s t t' : State), exec .tFrame s = .next t → exec .tFrameSwap s = .next t' →
    t.t.blinkCtr = s.t.blinkCtr + 1#4 ∧ t'.t = t.t
      ∧ ∃ px px' : List Pixel, t.tOut.frame = some px ∧ t'.tOut.frame = some px'
      ∧ px'.length = px.length
      ∧ ∀ (n : Nat) (p : Pixel), px[n]? = some p → ∃ p' : Pixel, px'[n]? = some p'
        ∧ p'.extractLsb' 0 8 = p.extractLsb' 16 8 ∧ p'.extractLsb' 8 8 = p.extractLsb' 8 8
        ∧ p'.extractLsb' 16 8 = p.extractLsb' 0 8 ∧ p'.extractLsb' 24 8 = p.extractLsb' 24 8)
  ∧ ∀ p : Pixel, swapLanes (swapLanes p) = p

/-- R118, R119, R196: the blink counter counts rendered frames modulo 16, direct and swapped alike, from any state
whose pointers are usable, and nothing else of the TDA moves. -/
def Obligations.BlinkCounterCountsFrames : Prop :=
  ∀ (s : State) (frames : List Instr), FrameUsable s → (∀ i ∈ frames, i = .tFrame ∨ i = .tFrameSwap) →
    ∃ (t : State) (ctr : BitVec 4), runInstrs frames s = .next t
      ∧ ctr.toNat = (s.t.blinkCtr.toNat + frames.length) % 16 ∧ t.t = { s.t with blinkCtr := ctr }

/-- R121 with R47: a frame depends on nothing but the captured screen's sources, the counter and the palette: two
states that agree on the pointers, the cursor state, the counter, the parameters, ROM, and the RAM bytes of the text
buffer and of a RAM-backed font, show the same pixels, whatever the other RAM bytes, registers, latches, queue,
results and schedule are. -/
def Obligations.FrameSeesOnlyItsWindows : Prop :=
  ∀ s s' t : State, s'.params = s.params → (∀ a : Nat, s'.readRom a = s.readRom a) →
    s'.t.bufferPtr = s.t.bufferPtr → s'.t.fontPtr = s.t.fontPtr → s'.t.cursor = s.t.cursor → s'.t.blink = s.t.blink →
    s'.t.d = s.t.d → s'.t.e = s.t.e → s'.t.blinkCtr = s.t.blinkCtr →
    (∀ a : Nat, s.t.bufferPtr.toNat ≤ a → a < s.t.bufferPtr.toNat + 2400 → s'.readRam a = s.readRam a) →
    (s.t.fontPtr ≠ 0#32 → s.t.fontPtr.toNat + 2048 ≤ s.params.ramSize →
      ∀ a : Nat, s.t.fontPtr.toNat ≤ a → a < s.t.fontPtr.toNat + 2048 → s'.readRam a = s.readRam a) →
    exec .tFrame s = .next t → ∃ t' : State, exec .tFrame s' = .next t' ∧ t'.tOut.frame = t.tOut.frame

/-! ## Snapshots -/

/-- R131: keyboard `GetState`. -/
def Obligations.KbdGetStateEmitsEverything : Prop :=
  ∀ s : State, exec .kGet s = .next
    { s with kOut := { s.kOut with snap := some (Snapshot.mk
        [s.k.a, s.k.b, s.k.c, 0#16, 0#16]
        [(s.params.kbdProps.msg, .int s.k.latch.msg.toNat),
          (s.params.kbdProps.pending, .bool s.k.latch.pending),
          (s.params.kbdProps.queue, .raw (s.k.q.flatMap fun w =>
            [w.extractLsb' 0 8, w.extractLsb' 8 8, w.extractLsb' 16 8, w.extractLsb' 24 8]))]) } }

/-- R132: TDA `GetState`; pointers are emitted only when not zero. -/
def Obligations.TdaGetStateEmitsEverything : Prop :=
  ∀ s : State, ∃ snap : Snapshot,
    exec .tGet s = .next { s with tOut := { s.tOut with snap := some snap } }
    ∧ snap.regs = [s.t.a, s.t.b, 0#16, s.t.d, s.t.e]
    ∧ ∀ p : String × PropValue, p ∈ snap.props ↔
        p = (s.params.tdaProps.msg, .int s.t.latch.msg.toNat)
        ∨ p = (s.params.tdaProps.pending, .bool s.t.latch.pending)
        ∨ p = (s.params.tdaProps.cursor, .bool s.t.cursor)
        ∨ p = (s.params.tdaProps.blink, .bool s.t.blink)
        ∨ (s.t.bufferPtr ≠ 0#32 ∧ p = (s.params.tdaProps.bufferPtr, .int s.t.bufferPtr.toNat))
        ∨ (s.t.fontPtr ≠ 0#32 ∧ p = (s.params.tdaProps.fontPtr, .int s.t.fontPtr.toNat))

/-- R136: `SetState` fails exactly when fewer than five register values are given; it then returns false and no state
element changes; with five or more it returns true and the implemented registers are written by position. -/
def Obligations.SetStateFailsExactlyWhenShort : Prop :=
  ∀ (s : State) (snap : Snapshot),
    (snap.regs.length < 5 →
      exec (.kSet snap) s = .next { s with kOut := { s.kOut with snapOk := some false } }
      ∧ exec (.tSet snap) s = .next { s with tOut := { s.tOut with snapOk := some false } })
    ∧ (5 ≤ snap.regs.length → ∃ t t' : State,
        exec (.kSet snap) s = .next t ∧ t.kOut = { s.kOut with snapOk := some true }
        ∧ some t.k.a = snap.regs[0]? ∧ some t.k.b = snap.regs[1]? ∧ some t.k.c = snap.regs[2]?
        ∧ exec (.tSet snap) s = .next t' ∧ t'.tOut = { s.tOut with snapOk := some true }
        ∧ some t'.t.a = snap.regs[0]? ∧ some t'.t.b = snap.regs[1]? ∧ some t'.t.d = snap.regs[3]?
        ∧ some t'.t.e = snap.regs[4]?)

/-- R134 with R133: what keyboard `SetState` restores from the properties of a snapshot, by name and type; what is
absent, or present with another type, keeps its value; the queue takes the last `min(n, BSIZE)` words of the blob. -/
def Obligations.KbdSetStateRestoresByName : Prop :=
  ∀ (s : State) (snap : Snapshot), snap.wellFormed = true → 5 ≤ snap.regs.length →
    ∃ t : State, exec (.kSet snap) s = .next t
      ∧ t = { s with k := t.k, kOut := { s.kOut with snapOk := some true } }
      ∧ (∀ v : Nat, (s.params.kbdProps.msg, .int v) ∈ snap.props → t.k.latch.msg.toNat = v % 2 ^ 16)
      ∧ ((∀ v : Nat, (s.params.kbdProps.msg, .int v) ∉ snap.props) → t.k.latch.msg = s.k.latch.msg)
      ∧ (∀ f : Bool, (s.params.kbdProps.pending, .bool f) ∈ snap.props → t.k.latch.pending = f)
      ∧ ((∀ f : Bool, (s.params.kbdProps.pending, .bool f) ∉ snap.props) → t.k.latch.pending = s.k.latch.pending)
      ∧ (∀ bytes : List Byte, (s.params.kbdProps.queue, .raw bytes) ∈ snap.props →
          t.k.q.length = min (bytes.length / 4) s.params.bsize
          ∧ ∀ (i : Nat) (w : Event), t.k.q[i]? = some w →
              ∃ b0 b1 b2 b3 : Byte,
                bytes[4 * (bytes.length / 4 - min (bytes.length / 4) s.params.bsize + i)]? = some b0
                ∧ bytes[4 * (bytes.length / 4 - min (bytes.length / 4) s.params.bsize + i) + 1]? = some b1
                ∧ bytes[4 * (bytes.length / 4 - min (bytes.length / 4) s.params.bsize + i) + 2]? = some b2
                ∧ bytes[4 * (bytes.length / 4 - min (bytes.length / 4) s.params.bsize + i) + 3]? = some b3
                ∧ w.toNat = b0.toNat + 2 ^ 8 * b1.toNat + 2 ^ 16 * b2.toNat + 2 ^ 24 * b3.toNat)
      ∧ ((∀ bytes : List Byte, (s.params.kbdProps.queue, .raw bytes) ∉ snap.props) → t.k.q = s.k.q)

/-- R135 with R133: what TDA `SetState` restores from the properties of a snapshot, by name and type, the pointers
without the fit test and each into its own field; what is absent, or present with another type, keeps its value, and
the blink counter does not change. -/
def Obligations.TdaSetStateRestoresByName : Prop :=
  ∀ (s : State) (snap : Snapshot), snap.wellFormed = true → 5 ≤ snap.regs.length →
    ∃ t : State, exec (.tSet snap) s = .next t
      ∧ t = { s with t := t.t, tOut := { s.tOut with snapOk := some true } }
      ∧ (∀ v : Nat, (s.params.tdaProps.msg, .int v) ∈ snap.props → t.t.latch.msg.toNat = v % 2 ^ 16)
      ∧ ((∀ v : Nat, (s.params.tdaProps.msg, .int v) ∉ snap.props) → t.t.latch.msg = s.t.latch.msg)
      ∧ (∀ f : Bool, (s.params.tdaProps.pending, .bool f) ∈ snap.props → t.t.latch.pending = f)
      ∧ ((∀ f : Bool, (s.params.tdaProps.pending, .bool f) ∉ snap.props) → t.t.latch.pending = s.t.latch.pending)
      ∧ (∀ f : Bool, (s.params.tdaProps.cursor, .bool f) ∈ snap.props → t.t.cursor = f)
      ∧ ((∀ f : Bool, (s.params.tdaProps.cursor, .bool f) ∉ snap.props) → t.t.cursor = s.t.cursor)
      ∧ (∀ f : Bool, (s.params.tdaProps.blink, .bool f) ∈ snap.props → t.t.blink = f)
      ∧ ((∀ f : Bool, (s.params.tdaProps.blink, .bool f) ∉ snap.props) → t.t.blink = s.t.blink)
      ∧ (∀ v : Nat, (s.params.tdaProps.bufferPtr, .int v) ∈ snap.props → t.t.bufferPtr.toNat = v % 2 ^ 32)
      ∧ ((∀ v : Nat, (s.params.tdaProps.bufferPtr, .int v) ∉ snap.props) → t.t.bufferPtr = s.t.bufferPtr)
      ∧ (∀ v : Nat, (s.params.tdaProps.fontPtr, .int v) ∈ snap.props → t.t.fontPtr.toNat = v % 2 ^ 32)
      ∧ ((∀ v : Nat, (s.params.tdaProps.fontPtr, .int v) ∉ snap.props) → t.t.fontPtr = s.t.fontPtr)
      ∧ t.t.blinkCtr = s.t.blinkCtr

/-- R137: `Reset` then `SetState` of the snapshot `GetState` gave returns true and brings back the device, but for the
blink counter, which is 0. The queue bound and the parameters' constraints hold in every reachable state (R14, R3). -/
def Obligations.SnapshotRoundTrips : Prop :=
  ∀ s : State, s.k.q.length ≤ s.params.bsize → s.params.wf →
    (∃ (snap : Snapshot) (g t : State), exec .kGet s = .next g ∧ g.kOut.snap = some snap
      ∧ runInstrs [.kReset, .kSet snap] s = .next t ∧ t.kOut.snapOk = some true ∧ t.k = s.k)
    ∧ (∃ (snap : Snapshot) (g t : State), exec .tGet s = .next g ∧ g.tOut.snap = some snap
      ∧ runInstrs [.tReset, .tSet snap] s = .next t ∧ t.tOut.snapOk = some true
      ∧ t.t = { s.t with blinkCtr := 0#4 })

/-- R130, "snapshot property order is irrelevant": two snapshots with the same registers and the same properties in
another order restore the same state. -/
def Obligations.PropertyOrderIsIrrelevant : Prop :=
  ∀ (s : State) (snap snap' : Snapshot), snap.wellFormed = true → snap'.regs = snap.regs →
    List.Perm snap.props snap'.props →
      exec (.kSet snap') s = exec (.kSet snap) s ∧ exec (.tSet snap') s = exec (.tSet snap) s

/-! ## Interrupts and reset -/

/-- R151: `RaiseInt`, strobe `int_set`, sets the pending flag, whatever the message, and changes nothing else; no other
operation but `SetState` sets it. -/
def Obligations.RaiseSetsPending : Prop :=
  decode (.strobe .kbd .intSet 1#2) = .ok .kRaise ∧ decode (.strobe .tda .intSet 1#2) = .ok .tRaise
  ∧ (∀ s : State,
    exec .kRaise s = .next { s with k := { s.k with latch := { s.k.latch with pending := true } } }
    ∧ exec .tRaise s = .next { s with t := { s.t with latch := { s.t.latch with pending := true } } })
  ∧ ∀ (i : Instr) (s t : State), exec i s = .next t →
    (s.k.latch.pending = false → t.k.latch.pending = true → i = .kRaise ∨ ∃ snap : Snapshot, i = .kSet snap)
    ∧ (s.t.latch.pending = false → t.t.latch.pending = true → i = .tRaise ∨ ∃ snap : Snapshot, i = .tSet snap)

/-- R152: `DoesInterrupt` reports the message exactly when the flag is set and the message is not zero; otherwise it
returns false with some message; the device does not change. The outputs `irq` and `irq_msg` are the flag and the
message. (The counter of free values drawn, log 6, advances with a false answer.) -/
def Obligations.DoesInterruptReportsTheLatch : Prop :=
  ∀ s : State,
    ((s.k.latch.pending = true ∧ s.k.latch.msg ≠ 0#16) →
      exec .kPoll s = .next { s with kOut := { s.kOut with irq := some (true, s.k.latch.msg) } })
    ∧ (¬ (s.k.latch.pending = true ∧ s.k.latch.msg ≠ 0#16) → ∃ m : Word,
      exec .kPoll s = .next
        { s with kOut := { s.kOut with irq := some (false, m), draws := s.kOut.draws + 1 } })
    ∧ ((s.t.latch.pending = true ∧ s.t.latch.msg ≠ 0#16) →
      exec .tPoll s = .next { s with tOut := { s.tOut with irq := some (true, s.t.latch.msg) } })
    ∧ (¬ (s.t.latch.pending = true ∧ s.t.latch.msg ≠ 0#16) → ∃ m : Word,
      exec .tPoll s = .next
        { s with tOut := { s.tOut with irq := some (false, m), draws := s.tOut.draws + 1 } })
    ∧ (irqLine .kbd s = true ↔ s.k.latch.pending = true ∧ s.k.latch.msg ≠ 0#16)
    ∧ (irqLine .tda s = true ↔ s.t.latch.pending = true ∧ s.t.latch.msg ≠ 0#16)
    ∧ irqMsgLine .kbd s = s.k.latch.msg ∧ irqMsgLine .tda s = s.t.latch.msg

/-- R153: `IACK`, strobe `iack`, clears the pending flag, keeps the message, and changes nothing else; no other
operation but `Reset` and `SetState` clears it. -/
def Obligations.IackClearsPending : Prop :=
  decode (.strobe .kbd .iack 1#2) = .ok .kIack ∧ decode (.strobe .tda .iack 1#2) = .ok .tIack
  ∧ (∀ s : State,
    exec .kIack s = .next { s with k := { s.k with latch := { s.k.latch with pending := false } } }
    ∧ exec .tIack s = .next { s with t := { s.t with latch := { s.t.latch with pending := false } } })
  ∧ ∀ (i : Instr) (s t : State), exec i s = .next t →
    (s.k.latch.pending = true → t.k.latch.pending = false →
      i = .kIack ∨ i = .kReset ∨ ∃ snap : Snapshot, i = .kSet snap)
    ∧ (s.t.latch.pending = true → t.t.latch.pending = false →
      i = .tIack ∨ i = .tReset ∨ ∃ snap : Snapshot, i = .tSet snap)

/-- R160, R187: `RaiseInt`, a poll, `RaiseInt`, `IACK` ends with nothing pending: the second event is absorbed. -/
def Obligations.SecondEventIsAbsorbedByIack : Prop :=
  ∀ s : State,
    (∃ t : State, runInstrs [.kRaise, .kPoll, .kRaise, .kIack] s = .next t
      ∧ t.k.latch.pending = false ∧ t.k.latch.msg = s.k.latch.msg)
    ∧ (∃ t : State, runInstrs [.tRaise, .tPoll, .tRaise, .tIack] s = .next t
      ∧ t.t.latch.pending = false ∧ t.t.latch.msg = s.t.latch.msg)

/-- R154: the message of a latch is written only by the device's `SET_INT` (as a command or through slot 0), by
`Reset`, to 0, and by `SetState`; so it survives `IACK`. -/
def Obligations.OnlySetIntResetSetWriteMessages : Prop :=
  ∀ (i : Instr) (s t : State), exec i s = .next t →
    (t.k.latch.msg ≠ s.k.latch.msg →
      i = .kSetInt ∨ i = .kWrCmd 0x0003#16 ∨ i = .kReset ∨ ∃ snap : Snapshot, i = .kSet snap)
    ∧ (t.t.latch.msg ≠ s.t.latch.msg →
      i = .tSetInt ∨ i = .tWrCmd 0x0002#16 ∨ i = .tReset ∨ ∃ snap : Snapshot, i = .tSet snap)
    ∧ (i = .kReset → t.k.latch.msg = 0#16) ∧ (i = .tReset → t.t.latch.msg = 0#16)
    ∧ (i = .kIack → t.k.latch.msg = s.k.latch.msg) ∧ (i = .tIack → t.t.latch.msg = s.t.latch.msg)

/-- R156: from a zero message (as after `Reset`), whatever operations run, and however often `RaiseInt` is among them,
a latch reports nothing until a `SET_INT` (or `SetState`) of its device. -/
def Obligations.MaskedUntilSetInt : Prop :=
  ∀ (is : List Instr) (s t : State), runInstrs is s = .next t →
    (s.k.latch.msg = 0#16 →
      (∀ i ∈ is, i ≠ .kSetInt ∧ i ≠ .kWrCmd 0x0003#16 ∧ ∀ snap : Snapshot, i ≠ .kSet snap) →
      t.k.latch.msg = 0#16 ∧ irqLine .kbd t = false)
    ∧ (s.t.latch.msg = 0#16 →
      (∀ i ∈ is, i ≠ .tSetInt ∧ i ≠ .tWrCmd 0x0002#16 ∧ ∀ snap : Snapshot, i ≠ .tSet snap) →
      t.t.latch.msg = 0#16 ∧ irqLine .tda t = false)

/-- R180, R181: what `Reset`, strobe `rst`, leaves in its device, from any state, and that it changes nothing else. -/
def Obligations.ResetClearsItsDevice : Prop :=
  decode (.strobe .kbd .rst 1#2) = .ok .kReset ∧ decode (.strobe .tda .rst 1#2) = .ok .tReset
  ∧ ∀ s : State,
    exec .kReset s = .next
      { s with k := { a := 0#16, b := 0#16, c := 0#16, q := [], latch := { pending := false, msg := 0#16 } } }
    ∧ exec .tReset s = .next
      { s with t :=
          { a := 0#16, b := 0#16, d := 0#16, e := 0#16, bufferPtr := 0#32, fontPtr := 0#32, cursor := false, blink := false,
            latch := { pending := false, msg := 0#16 }, blinkCtr := 0#4 } }

/-- R30, R182: the power-on state, element by element as the rule's table gives it, is the state after `Reset`, which
touches no constant and no memory. -/
def Obligations.ResetStateIsTheTable : Prop :=
  State.reset.k.a = 0#16 ∧ State.reset.k.b = 0#16 ∧ State.reset.k.c = 0#16 ∧ State.reset.k.q = []
    ∧ State.reset.k.latch.pending = false ∧ State.reset.k.latch.msg = 0#16
    ∧ State.reset.t.a = 0#16 ∧ State.reset.t.b = 0#16 ∧ State.reset.t.d = 0#16 ∧ State.reset.t.e = 0#16
    ∧ State.reset.t.bufferPtr = 0#32 ∧ State.reset.t.fontPtr = 0#32
    ∧ State.reset.t.cursor = false ∧ State.reset.t.blink = false
    ∧ State.reset.t.latch.pending = false ∧ State.reset.t.latch.msg = 0#16 ∧ State.reset.t.blinkCtr = 0#4
    ∧ ∀ s : State,
      exec .kReset s = .next { s with k := State.reset.k } ∧ exec .tReset s = .next { s with t := State.reset.t }

/-! ## The whole machine -/

/-- R5, R158: no operation faults, and every operation gives a next state, but for the frames, which may be refused. -/
def Obligations.EveryOperationIsTotal : Prop :=
  ∀ (i : Instr) (s : State),
    (∀ f : Fault, exec i s ≠ .fault f)
    ∧ (i ≠ .tFrame → i ≠ .tFrameSwap → ∃ t : State, exec i s = .next t)

/-- R4, R150, R183: an operation on one device leaves the other device, and what its ports last gave out, as it was. -/
def Obligations.DevicesShareNothing : Prop :=
  ∀ (i : Instr) (s t : State), exec i s = .next t →
    (i.device = .kbd → t.t = s.t ∧ t.tOut = s.tOut) ∧ (i.device = .tda → t.k = s.k ∧ t.kOut = s.kOut)

/-- R47: no operation writes a byte of RAM, ROM or `FONT_ROM` (or moves a parameter or the schedule), and only the
frames read them: any other operation does the same whatever the memories hold. -/
def Obligations.MemoryIsReadOnlyAndOnlyByFrames : Prop :=
  ∀ (i : Instr) (s t : State), exec i s = .next t →
    (∀ a : Nat, t.readRam a = s.readRam a ∧ t.readRom a = s.readRom a)
    ∧ t.params = s.params ∧ t.inputs = s.inputs
    ∧ (i ≠ .tFrame → i ≠ .tFrameSwap → ∀ (ram rom : Memory) (font : Vector Byte 2048),
        exec i { s with ram := ram, rom := rom, params := { s.params with fontRom := font } }
          = .next { t with ram := ram, rom := rom, params := { t.params with fontRom := font } })

/-- R10, R14: the keyboard's registers and queue are written by nothing but the operations the rules name. -/
def Obligations.KeyboardStateHasItsWriters : Prop :=
  ∀ (i : Instr) (s t : State), exec i s = .next t →
    (t.k.q ≠ s.k.q →
      i = .kPushKey ∨ i = .kPullKey ∨ i = .kClrBuffer ∨ i = .kWrCmd 0x0000#16 ∨ i = .kWrCmd 0x0001#16
        ∨ i = .kWrCmd 0x0002#16 ∨ i = .kReset ∨ ∃ snap : Snapshot, i = .kSet snap)
    ∧ ((t.k.a ≠ s.k.a ∨ t.k.b ≠ s.k.b ∨ t.k.c ≠ s.k.c) →
      i = .kPullKey ∨ i = .kWrCmd 0x0001#16 ∨ i = .kReset ∨ (∃ snap : Snapshot, i = .kSet snap)
        ∨ (∃ v : Word, i = .kWrA v ∨ i = .kWrB v ∨ i = .kWrC v))

/-- R12, R16, R18, R162: the TDA's registers, pointers, flags and blink counter are written by nothing but the
operations the rules name. -/
def Obligations.TdaStateHasItsWriters : Prop :=
  ∀ (i : Instr) (s t : State), exec i s = .next t →
    (t.t.bufferPtr ≠ s.t.bufferPtr →
      i = .tMapBuffer ∨ i = .tWrCmd 0x0000#16 ∨ i = .tReset ∨ ∃ snap : Snapshot, i = .tSet snap)
    ∧ (t.t.fontPtr ≠ s.t.fontPtr →
      i = .tMapFont ∨ i = .tWrCmd 0x0001#16 ∨ i = .tReset ∨ ∃ snap : Snapshot, i = .tSet snap)
    ∧ ((t.t.cursor ≠ s.t.cursor ∨ t.t.blink ≠ s.t.blink ∨ t.t.e ≠ s.t.e) →
      (∃ v : Word, i = .tWrE v) ∨ i = .tReset ∨ ∃ snap : Snapshot, i = .tSet snap)
    ∧ ((t.t.a ≠ s.t.a ∨ t.t.b ≠ s.t.b ∨ t.t.d ≠ s.t.d) →
      (∃ v : Word, i = .tWrA v ∨ i = .tWrB v ∨ i = .tWrD v) ∨ i = .tReset ∨ ∃ snap : Snapshot, i = .tSet snap)
    ∧ (t.t.blinkCtr ≠ s.t.blinkCtr → i = .tFrame ∨ i = .tFrameSwap ∨ i = .tReset)

/-- R14, R31 (i) and the canonical form of memory: every step, from every state that meets the invariant, whatever
move of the environment it takes, keeps it. -/
def Obligations.StepKeepsTheInvariant : Prop :=
  ∀ s t : State, Machine.Inv s → step s = .next t → Machine.Inv t

/-- R31 at reset: the invariant holds there, and so do (ii) and (iv). (The parameters at reset are any that meet R3's
constraints, log 3; the memories meet theirs by the model's choice, log 4.) -/
def Obligations.ResetMeetsTheInvariants : Prop :=
  Machine.Inv State.reset ∧ EventsPacked State.reset ∧ TdaCoherent State.reset

/-- R31 (ii), (iv): operations other than `SetState`, in any number and order, keep queued events' bits 31:27 zero,
mapped pointers unmapped or fitting, and the flags equal to their bits of `T.e`. -/
def Obligations.WithoutSetStateTheDevicesStayCoherent : Prop :=
  ∀ (is : List Instr) (s t : State), runInstrs is s = .next t →
    ((∀ i ∈ is, ∀ snap : Snapshot, i ≠ .kSet snap) → EventsPacked s → EventsPacked t)
    ∧ ((∀ i ∈ is, ∀ snap : Snapshot, i ≠ .tSet snap) → TdaCoherent s → TdaCoherent t)

/-- R41, R52, R53 and the model's input (log 5): a CPU write to an existing RAM index is seen by every later read and
changes no other byte and nothing else; a write to an index that does not exist faults. -/
def Obligations.CpuWriteChangesOneByte : Prop :=
  ∀ (s : State) (a : Nat) (v : Byte) (rest : List Input), s.inputs = .cpuWrite a v :: rest → s.ram.wf →
    (a < s.params.ramSize → ∃ t : State, step s = .next t ∧ t = { s with ram := t.ram, inputs := rest }
      ∧ ∀ x : Nat, t.readRam x = if x = a then v else s.readRam x)
    ∧ (s.params.ramSize ≤ a → step s = .fault (.ramHole a))

/-- R158 for whole steps: a step whose next move is no CPU write to a missing RAM index raises no fault. -/
def Obligations.OnlyCpuWritesCanFault : Prop :=
  ∀ s : State, (∀ (a : Nat) (v : Byte) (rest : List Input),
      s.inputs = .cpuWrite a v :: rest → a < s.params.ramSize) → StepSafe s

/-! ## Bus addresses -/

/-- The model's choice (log 15) for the parameter `REG_MAP` of R3 and R54: an access at the bus address of exactly one
slot steps as the request of that slot's transaction; an access at an address of no slot changes nothing (R4); an access
at an address that two slots share is refused. -/
def Obligations.BusAddressSelectsItsSlot : Prop :=
  ∀ (s : State) (addr : Nat) (we : Bool) (wdata : Word) (rest : List Input),
    s.inputs = .busAccess addr we wdata :: rest →
    (∀ (d : Device) (slot : BitVec 3), slotAddress s.params.regMap d slot = addr →
      (∀ (d' : Device) (slot' : BitVec 3), slotAddress s.params.regMap d' slot' = addr → d' = d ∧ slot' = slot) →
      step s = step
        { s with inputs := .request (if we then busWrite d slot wdata else busRead d slot) :: rest })
    ∧ ((∀ (d : Device) (slot : BitVec 3), slotAddress s.params.regMap d slot ≠ addr) →
      step s = .next { s with inputs := rest })
    ∧ (∀ (d d' : Device) (slot slot' : BitVec 3), (d, slot) ≠ (d', slot') →
      slotAddress s.params.regMap d slot = addr → slotAddress s.params.regMap d' slot' = addr →
      step s = .refused (.addressShared addr))
end

