-- ==== Sys2Proof/Laws/BusAddresses.lean ====
section
/-! SUPPORT. What an access at a bus address can be (R3, R54). -/

namespace Sys2Proof.Machine

/-- Every slot of both devices is listed. -/
theorem mem_allSlots (d : Device) (slot : BitVec 3) : (d, slot) ∈ allSlots := by
  revert slot
  cases d <;> decide

/-- The slots at an address are those `REG_MAP` puts there. -/
theorem mem_slotsAt {m : RegMap} {addr : Nat} {d : Device} {slot : BitVec 3} :
    (d, slot) ∈ slotsAt m addr ↔ slotAddress m d slot = addr := by
  simp [slotsAt, mem_allSlots]

/-- No slot is listed twice at an address. -/
theorem slotsAt_nodup (m : RegMap) (addr : Nat) : (slotsAt m addr).Nodup :=
  List.Nodup.filter _ (by decide : allSlots.Nodup)

/-- Everything an access at a bus address can be: of no slot, of exactly one, of two. -/
theorem runBusAccess_cases (addr : Nat) (we : Bool) (wdata : Word) (s : State) :
    ((∀ d slot, slotAddress s.params.regMap d slot ≠ addr) ∧ runBusAccess addr we wdata s = .next s)
      ∨ (∃ d slot, (∀ d' slot', slotAddress s.params.regMap d' slot' = addr ↔ d' = d ∧ slot' = slot)
          ∧ runBusAccess addr we wdata s = runRequest (busTransaction d slot we wdata) s)
      ∨ ∃ d slot d' slot', (d, slot) ≠ (d', slot') ∧ slotAddress s.params.regMap d slot = addr
          ∧ slotAddress s.params.regMap d' slot' = addr
          ∧ runBusAccess addr we wdata s = .refused (.addressShared addr) := by
  have mem : ∀ d slot, slotAddress s.params.regMap d slot = addr ↔ (d, slot) ∈ slotsAt s.params.regMap addr :=
    fun _ _ => mem_slotsAt.symm
  have nodup := slotsAt_nodup s.params.regMap addr
  unfold runBusAccess
  rcases h : slotsAt s.params.regMap addr with _ | ⟨⟨d, slot⟩, _ | ⟨⟨d', slot'⟩, more⟩⟩
  · exact .inl ⟨fun d slot => by simp [mem, h], rfl⟩
  · exact .inr (.inl ⟨d, slot, fun d' slot' => by simp [mem, h], rfl⟩)
  · refine .inr (.inr ⟨d, slot, d', slot', ?_, by simp [mem, h], by simp [mem, h], rfl⟩)
    rw [h] at nodup
    simp only [List.nodup_cons, List.mem_cons, not_or] at nodup
    exact nodup.1.1

end Sys2Proof.Machine
end

