-- ==== Sys2Proof/Laws/Operands.lean ====
section
/-! SUPPORT. The operand functions as numbers: what each field function says of `toNat`. -/

namespace Sys2Proof.Machine

/-- The mapping address as a number (R66). -/
theorem candidate_toNat (t : Tda) : (candidate t).toNat = 2 ^ 16 * t.b.toNat + t.a.toNat := by
  have ha := t.a.isLt
  simp only [candidate, BitVec.toNat_append]
  rw [← Nat.shiftLeft_add_eq_or_of_lt ha, Nat.shiftLeft_eq, Nat.mul_comm]

/-- A packed event as a number (R67): three fields that do not overlap. -/
theorem pack_toNat (a b c : Word) :
    (pack a b c).toNat = 2 ^ 24 * (c.toNat % 8) + 2 ^ 16 * (a.toNat % 256) + b.toNat := by
  have hb : b.toNat < 2 ^ 16 := b.isLt
  have ha : a.toNat % 256 < 2 ^ 8 := Nat.mod_lt _ (by decide)
  have hc : c.toNat % 8 < 2 ^ 3 := Nat.mod_lt _ (by decide)
  have hA : 2 ^ 16 * (a.toNat % 256) < 2 ^ 24 := by omega
  have hAB : 2 ^ 16 * (a.toNat % 256) + b.toNat < 2 ^ 24 := by omega
  have e1 : (a.toNat % 256) <<< 16 ||| b.toNat = 2 ^ 16 * (a.toNat % 256) + b.toNat := by
    rw [← Nat.shiftLeft_add_eq_or_of_lt hb, Nat.shiftLeft_eq, Nat.mul_comm]
  have e2 : (c.toNat % 8) <<< 24 ||| (2 ^ 16 * (a.toNat % 256) + b.toNat)
      = 2 ^ 24 * (c.toNat % 8) + (2 ^ 16 * (a.toNat % 256) + b.toNat) := by
    rw [← Nat.shiftLeft_add_eq_or_of_lt hAB, Nat.shiftLeft_eq, Nat.mul_comm]
  have m1 : (a.toNat % 256) <<< 16 % 2 ^ 32 = (a.toNat % 256) <<< 16 :=
    Nat.mod_eq_of_lt (by rw [Nat.shiftLeft_eq]; omega)
  have m2 : (c.toNat % 8) <<< 24 % 2 ^ 32 = (c.toNat % 8) <<< 24 :=
    Nat.mod_eq_of_lt (by rw [Nat.shiftLeft_eq]; omega)
  simp only [pack, BitVec.toNat_or, BitVec.toNat_shiftLeft, BitVec.toNat_setWidth, BitVec.extractLsb'_toNat,
    Nat.shiftRight_zero]
  rw [Nat.mod_eq_of_lt (a := c.toNat % 2 ^ 3) (by omega), Nat.mod_eq_of_lt (a := a.toNat % 2 ^ 8) (by omega),
    Nat.mod_eq_of_lt (a := b.toNat) (by omega)]
  rw [show (2 : Nat) ^ 3 = 8 from rfl, show (2 : Nat) ^ 8 = 256 from rfl, m1, m2, Nat.or_assoc, e1, e2]
  omega

/-- A field of a word as a number. -/
theorem field_toNat {w : Nat} (v : BitVec w) (lo n : Nat) :
    (v.extractLsb' lo n).toNat = v.toNat / 2 ^ lo % 2 ^ n := by
  rw [BitVec.extractLsb'_toNat, Nat.shiftRight_eq_div_pow]

/-- The key code of an event as a number (R67). -/
theorem eventKeycode_toNat (ev : Event) : (eventKeycode ev).toNat = ev.toNat / 2 ^ 16 % 2 ^ 8 := by
  rw [eventKeycode, BitVec.toNat_setWidth, field_toNat]
  omega

/-- The scan code of an event as a number (R67). -/
theorem eventScancode_toNat (ev : Event) : (eventScancode ev).toNat = ev.toNat % 2 ^ 16 := by
  rw [eventScancode, field_toNat]
  omega

/-- The status of an event as a number (R67). -/
theorem eventStatus_toNat (ev : Event) : (eventStatus ev).toNat = ev.toNat / 2 ^ 24 % 2 ^ 3 := by
  rw [eventStatus, BitVec.toNat_setWidth, field_toNat]
  omega

/-- A little-endian cell as a number (R43). -/
theorem le16_toNat (b0 b1 : Byte) : (le16 b0 b1).toNat = b0.toNat + 2 ^ 8 * b1.toNat := by
  have h0 := b0.isLt
  simp only [le16, BitVec.toNat_append]
  rw [← Nat.shiftLeft_add_eq_or_of_lt h0, Nat.shiftLeft_eq]
  omega

/-- A little-endian word of a blob as a number (R134). -/
theorem le32_toNat (b0 b1 b2 b3 : Byte) :
    (le32 b0 b1 b2 b3).toNat
      = b0.toNat + 2 ^ 8 * b1.toNat + 2 ^ 16 * b2.toNat + 2 ^ 24 * b3.toNat := by
  have h0 := b0.isLt
  have h1 := b1.isLt
  have h2 := b2.isLt
  simp only [le32, BitVec.toNat_append]
  rw [← Nat.shiftLeft_add_eq_or_of_lt h0, ← Nat.shiftLeft_add_eq_or_of_lt h1,
    ← Nat.shiftLeft_add_eq_or_of_lt h2]
  simp only [Nat.shiftLeft_eq]
  omega

/-- The bytes of an event make it again (R131, R134). -/
theorem le32_eventBytes (w : Event) :
    le32 (w.extractLsb' 0 8) (w.extractLsb' 8 8) (w.extractLsb' 16 8) (w.extractLsb' 24 8) = w := by
  apply BitVec.eq_of_toNat_eq
  have h := w.isLt
  simp only [le32_toNat, field_toNat]
  omega

/-- The words of a queue's blob are the queue (R131, R134). -/
theorem blobWords_queueBytes (q : List Event) : blobWords (queueBytes q) = q := by
  induction q with
  | nil => rfl
  | cons w ws ih =>
    show le32 _ _ _ _ :: blobWords (queueBytes ws) = _
    rw [ih, le32_eventBytes]

/-- A blob holds one word for every four bytes (R134). -/
theorem blobWords_length (bytes : List Byte) : (blobWords bytes).length = bytes.length / 4 := by
  fun_induction blobWords bytes with
  | case1 b0 b1 b2 b3 rest ih =>
    simp only [List.length_cons, ih]
    omega
  | case2 bytes h =>
    match bytes, h with
    | [], _ => simp
    | [_], _ => simp
    | [_, _], _ => simp
    | [_, _, _], _ => simp
    | b0 :: b1 :: b2 :: b3 :: rest, h => exact (h b0 b1 b2 b3 rest rfl).elim

/-- Word `i` of a blob is made of its bytes `4*i` to `4*i + 3` (R134). -/
theorem blobWords_getElem? {bytes : List Byte} {i : Nat} {w : Event} (h : (blobWords bytes)[i]? = some w) :
    ∃ b0 b1 b2 b3 : Byte, bytes[4 * i]? = some b0 ∧ bytes[4 * i + 1]? = some b1 ∧ bytes[4 * i + 2]? = some b2
      ∧ bytes[4 * i + 3]? = some b3 ∧ w = le32 b0 b1 b2 b3 := by
  fun_induction blobWords bytes generalizing i with
  | case1 b0 b1 b2 b3 rest ih =>
    cases i with
    | zero =>
      simp only [List.getElem?_cons_zero, Option.some.injEq] at h
      exact ⟨b0, b1, b2, b3, rfl, rfl, rfl, rfl, h.symm⟩
    | succ i =>
      simp only [List.getElem?_cons_succ] at h
      obtain ⟨c0, c1, c2, c3, h0, h1, h2, h3, h4⟩ := ih h
      exact ⟨c0, c1, c2, c3, h0, h1, h2, h3, h4⟩
  | case2 => simp at h

/-- The blob of a queue, event by event (R131). -/
theorem queueBytes_eq_flatMap (q : List Event) : queueBytes q = q.flatMap eventBytes := by
  induction q with
  | nil => rfl
  | cons w ws ih => simp [queueBytes, ih]

/-- Each bit of a pixel with its lanes exchanged: bits 7:0 and 23:16 trade places (R120). -/
theorem swapLanes_getLsbD (p : Pixel) (i : Nat) :
    (swapLanes p).getLsbD i =
      if i < 8 then p.getLsbD (i + 16) else if 16 ≤ i ∧ i < 24 then p.getLsbD (i - 16) else p.getLsbD i := by
  by_cases hi : i < 32
  · interval_cases i <;> simp [swapLanes]
  · have h1 : (swapLanes p).getLsbD i = false := BitVec.getLsbD_of_ge _ _ (by omega)
    have h2 : p.getLsbD i = false := BitVec.getLsbD_of_ge _ _ (by omega)
    rw [h1, if_neg (by omega), if_neg (by omega), h2]

/-- The cursor fields of `T.d` and `T.e` as numbers (R20, R21). -/
theorem cursor_fields_toNat (d e : Word) :
    (cursorRow d).toNat = d.toNat / 2 ^ 8 ∧ (cursorCol d).toNat = d.toNat % 2 ^ 8
      ∧ (cursorStart e).toNat = e.toNat / 2 ^ 4 % 8 ∧ (cursorEnd e).toNat = e.toNat / 2 ^ 8 % 8
      ∧ (cursorColor e).toNat = e.toNat % 16 := by
  have hd : d.toNat < 2 ^ 16 := d.isLt
  have he : e.toNat < 2 ^ 16 := e.isLt
  refine ⟨?_, ?_, ?_, ?_, ?_⟩ <;>
    simp only [cursorRow, cursorCol, cursorStart, cursorEnd, cursorColor, field_toNat] <;> omega

/-- The fields of a cell as numbers (R22). -/
theorem cell_fields_toNat (cell : Word) :
    (cellGlyph cell).toNat = cell.toNat % 2 ^ 8 ∧ (cellFg cell).toNat = cell.toNat / 2 ^ 8 % 16
      ∧ (cellBg cell).toNat = cell.toNat / 2 ^ 12 := by
  have hc : cell.toNat < 2 ^ 16 := cell.isLt
  refine ⟨?_, ?_, ?_⟩ <;> simp only [cellGlyph, cellFg, cellBg, field_toNat] <;> omega

end Sys2Proof.Machine
end

