-- ==== Sys2Proof/Laws/Devices.lean ====
section
/-! SUPPORT. One lemma for each shared operation on a device, saying everything the operation can do. -/

namespace Sys2Proof.Machine

/-! ## Keyboard -/

/-- A pull from a queue with a back: that event is unpacked (R92). -/
theorem Keyboard.pullKey_of_snoc {k : Keyboard} {q : List Event} {ev : Event} (h : k.q = q ++ [ev]) :
    k.pullKey =
      { k with q := q, a := eventKeycode ev, b := eventScancode ev, c := eventStatus ev } := by
  simp [Keyboard.pullKey, h]

/-- A pull from an empty queue zeroes the registers (R92). -/
theorem Keyboard.pullKey_of_empty {k : Keyboard} (h : k.q = []) :
    k.pullKey = { k with a := 0#16, b := 0#16, c := 0#16 } := by
  simp [Keyboard.pullKey, h]

/-- Everything a pull can do. -/
theorem Keyboard.pullKey_cases (k : Keyboard) :
    (k.q = [] ∧ k.pullKey = { k with a := 0#16, b := 0#16, c := 0#16 })
      ∨ ∃ q ev, k.q = q ++ [ev]
        ∧ k.pullKey = { k with q := q, a := eventKeycode ev, b := eventScancode ev, c := eventStatus ev } := by
  rcases List.eq_nil_or_concat k.q with h | ⟨q, ev, h⟩
  · exact .inl ⟨h, Keyboard.pullKey_of_empty h⟩
  · rw [List.concat_eq_append] at h
    exact .inr ⟨q, ev, h, Keyboard.pullKey_of_snoc h⟩

/-- Everything a push can do (R93). -/
theorem Keyboard.pushKey_cases (bsize : Nat) (k : Keyboard) :
    (k.q.length < bsize ∧ k.pushKey bsize = { k with q := pack k.a k.b k.c :: k.q })
      ∨ (bsize ≤ k.q.length ∧ k.pushKey bsize = k) := by
  by_cases h : k.q.length < bsize
  · exact .inl ⟨h, by simp [Keyboard.pushKey, h]⟩
  · exact .inr ⟨by omega, by simp [Keyboard.pushKey, h]⟩

/-- Everything `SendCMD` can do on the keyboard (R90). -/
theorem Keyboard.sendCmd_cases (bsize : Nat) (cmd : Word) (k : Keyboard) :
    (cmd = 0x0000#16 ∧ k.sendCmd bsize cmd = k.clrBuffer)
      ∨ (cmd = 0x0001#16 ∧ k.sendCmd bsize cmd = k.pullKey)
      ∨ (cmd = 0x0002#16 ∧ k.sendCmd bsize cmd = k.pushKey bsize)
      ∨ (cmd = 0x0003#16 ∧ k.sendCmd bsize cmd = k.setInt)
      ∨ (0x0004 ≤ cmd.toNat ∧ k.sendCmd bsize cmd = k) := by
  by_cases h0 : cmd = 0#16
  · exact .inl ⟨h0, by simp [Keyboard.sendCmd, h0]⟩
  by_cases h1 : cmd = 1#16
  · exact .inr (.inl ⟨h1, by simp [Keyboard.sendCmd, h1]⟩)
  by_cases h2 : cmd = 2#16
  · exact .inr (.inr (.inl ⟨h2, by simp [Keyboard.sendCmd, h2]⟩))
  by_cases h3 : cmd = 3#16
  · exact .inr (.inr (.inr (.inl ⟨h3, by simp [Keyboard.sendCmd, h3]⟩)))
  refine .inr (.inr (.inr (.inr ⟨?_, ?_⟩)))
  · rw [BitVec.toNat_eq] at h0 h1 h2 h3
    simp only [BitVec.toNat_ofNat] at h0 h1 h2 h3
    omega
  · unfold Keyboard.sendCmd
    rw [if_neg h0, if_neg h1, if_neg h2, if_neg h3]

/-- What a restored queue is: a suffix of the blob's words, of at most `BSIZE` of them (R134). -/
theorem restoredQueue_length (bsize : Nat) (bytes : List Byte) :
    (restoredQueue bsize bytes).length = min (bytes.length / 4) bsize := by
  rw [restoredQueue, List.length_drop, blobWords_length]
  omega

/-- Everything keyboard `SetState` can do (R133, R134, R136). -/
theorem Keyboard.restore_cases (ps : Params) (snap : Snapshot) (k : Keyboard) :
    (snap.regs.length < 5 ∧ k.restore ps snap = none)
      ∨ ∃ a b c d e more, snap.regs = a :: b :: c :: d :: e :: more
        ∧ k.restore ps snap = some
          { a := a
            b := b
            c := c
            q := ((rawProp snap ps.kbdProps.queue).map (restoredQueue ps.bsize)).getD k.q
            latch := k.latch.restore snap ps.kbdProps.msg ps.kbdProps.pending } := by
  rcases h : snap.regs with _ | ⟨a, _ | ⟨b, _ | ⟨c, _ | ⟨d, _ | ⟨e, more⟩⟩⟩⟩⟩
  case cons.cons.cons.cons.cons =>
    exact .inr ⟨a, b, c, d, e, more, rfl, by simp [Keyboard.restore, h]⟩
  all_goals exact .inl ⟨by simp, by simp [Keyboard.restore, h]⟩

/-! ## TDA -/

/-- Everything `MAP_BUFFER` can do (R101). -/
theorem Tda.mapBuffer_cases (ps : Params) (t : Tda) :
    ((candidate t).toNat + 2400 ≤ ps.ramSize ∧ t.mapBuffer ps = { t with bufferPtr := candidate t })
      ∨ (ps.ramSize < (candidate t).toNat + 2400 ∧ t.mapBuffer ps = t) := by
  by_cases h : (candidate t).toNat + 2400 ≤ ps.ramSize
  · exact .inl ⟨h, by simp [Tda.mapBuffer, fitsRam, textBufferSize, h]⟩
  · exact .inr ⟨by omega, by simp [Tda.mapBuffer, fitsRam, textBufferSize, h]⟩

/-- Everything `MAP_FONT` can do (R102). -/
theorem Tda.mapFont_cases (ps : Params) (t : Tda) :
    (fontRegion ps (candidate t) ≠ none ∧ t.mapFont ps = { t with fontPtr := candidate t })
      ∨ (fontRegion ps (candidate t) = none ∧ t.mapFont ps = t) := by
  unfold Tda.mapFont fontRegion
  split_ifs <;> simp

/-- When a font pointer lies in no region (R42, R48). -/
theorem fontRegion_eq_none (ps : Params) (p : Pointer) :
    fontRegion ps p = none ↔
      ps.ramSize < p.toNat + 2048 ∧ (p.toNat < ps.romBase ∨ ps.romSize < p.toNat - ps.romBase + 2048) := by
  unfold fontRegion fitsRam fitsRom fontBufferSize
  split_ifs with h1 h2 <;> simp_all
  omega

/-- Everything `SendCMD` can do on the TDA (R100). -/
theorem Tda.sendCmd_cases (ps : Params) (cmd : Word) (t : Tda) :
    (cmd = 0x0000#16 ∧ t.sendCmd ps cmd = t.mapBuffer ps)
      ∨ (cmd = 0x0001#16 ∧ t.sendCmd ps cmd = t.mapFont ps)
      ∨ (cmd = 0x0002#16 ∧ t.sendCmd ps cmd = t.setInt)
      ∨ (0x0003 ≤ cmd.toNat ∧ t.sendCmd ps cmd = t) := by
  by_cases h0 : cmd = 0#16
  · exact .inl ⟨h0, by simp [Tda.sendCmd, h0]⟩
  by_cases h1 : cmd = 1#16
  · exact .inr (.inl ⟨h1, by simp [Tda.sendCmd, h1]⟩)
  by_cases h2 : cmd = 2#16
  · exact .inr (.inr (.inl ⟨h2, by simp [Tda.sendCmd, h2]⟩))
  refine .inr (.inr (.inr ⟨?_, ?_⟩))
  · rw [BitVec.toNat_eq] at h0 h1 h2
    simp only [BitVec.toNat_ofNat] at h0 h1 h2
    omega
  · unfold Tda.sendCmd
    rw [if_neg h0, if_neg h1, if_neg h2]

/-- Everything TDA `SetState` can do (R133, R135, R136). -/
theorem Tda.restore_cases (ps : Params) (snap : Snapshot) (t : Tda) :
    (snap.regs.length < 5 ∧ t.restore ps snap = none)
      ∨ ∃ a b c d e more, snap.regs = a :: b :: c :: d :: e :: more
        ∧ t.restore ps snap = some
          { a := a
            b := b
            d := d
            e := e
            bufferPtr := ((intProp snap ps.tdaProps.bufferPtr).map (BitVec.ofNat 32)).getD t.bufferPtr
            fontPtr := ((intProp snap ps.tdaProps.fontPtr).map (BitVec.ofNat 32)).getD t.fontPtr
            cursor := (boolProp snap ps.tdaProps.cursor).getD t.cursor
            blink := (boolProp snap ps.tdaProps.blink).getD t.blink
            latch := t.latch.restore snap ps.tdaProps.msg ps.tdaProps.pending
            blinkCtr := t.blinkCtr } := by
  rcases h : snap.regs with _ | ⟨a, _ | ⟨b, _ | ⟨c, _ | ⟨d, _ | ⟨e, more⟩⟩⟩⟩⟩
  case cons.cons.cons.cons.cons =>
    exact .inr ⟨a, b, c, d, e, more, rfl, by simp [Tda.restore, h]⟩
  all_goals exact .inl ⟨by simp, by simp [Tda.restore, h]⟩

/-! ## Latch and properties -/

/-- Everything a poll can do (R152). -/
theorem PortOut.polled_cases (o : PortOut) (l : Latch) (free : Word) :
    (l.reports = true ∧ o.polled l free = { o with irq := some (true, l.msg) })
      ∨ (l.reports = false ∧ o.polled l free = { o with irq := some (false, free), draws := o.draws + 1 }) := by
  cases h : l.reports
  · exact .inr ⟨rfl, by simp [PortOut.polled, h]⟩
  · exact .inl ⟨rfl, by simp [PortOut.polled, h]⟩

/-- When a latch reports (R152). -/
theorem Latch.reports_iff (l : Latch) : l.reports = true ↔ l.pending = true ∧ l.msg ≠ 0#16 := by
  simp [Latch.reports]

/-- In a snapshot with unique names, the property of a name is the one listed (R130). -/
theorem propOf_eq_some {ps : List (String × PropValue)} (h : (ps.map (·.1)).Nodup) (name : String) (v : PropValue) :
    propOf ps name = some v ↔ (name, v) ∈ ps := by
  induction ps with
  | nil => simp [propOf]
  | cons p ps ih =>
    obtain ⟨n, w⟩ := p
    simp only [List.map_cons, List.nodup_cons, List.mem_map, not_exists, not_and] at h
    simp only [propOf, List.mem_cons, Prod.mk.injEq]
    split_ifs with hn
    · subst hn
      constructor
      · intro hw
        simp_all
      · rintro (⟨-, rfl⟩ | hm)
        · rfl
        · exact absurd rfl (h.1 _ hm)
    · rw [ih h.2]
      simp [Ne.symm hn]

/-- With unique names, an `INT` property is found exactly when it is listed (R130, R133). -/
theorem intProp_eq_some {snap : Snapshot} (h : (snap.props.map (·.1)).Nodup) (name : String) (v : Nat) :
    intProp snap name = some v ↔ (name, .int v) ∈ snap.props := by
  rw [← propOf_eq_some h]
  unfold intProp
  split <;> simp_all

/-- With unique names, a `BOOL` property is found exactly when it is listed (R130, R133). -/
theorem boolProp_eq_some {snap : Snapshot} (h : (snap.props.map (·.1)).Nodup) (name : String) (v : Bool) :
    boolProp snap name = some v ↔ (name, .bool v) ∈ snap.props := by
  rw [← propOf_eq_some h]
  unfold boolProp
  cases v <;> split <;> simp_all

/-- With unique names, a `RAW` property is found exactly when it is listed (R130, R133). -/
theorem rawProp_eq_some {snap : Snapshot} (h : (snap.props.map (·.1)).Nodup) (name : String) (v : List Byte) :
    rawProp snap name = some v ↔ (name, .raw v) ∈ snap.props := by
  rw [← propOf_eq_some h]
  unfold rawProp
  split <;> simp_all

/-! ## The rasterizer -/

/-- Everything `Capture` can do (R110, R111). -/
theorem capture_cases (s : State) :
    (s.t.bufferPtr = 0#32 ∧ capture s = .error .bufferUnmapped)
      ∨ (s.t.bufferPtr ≠ 0#32 ∧ s.params.ramSize < s.t.bufferPtr.toNat + 2400 ∧ capture s = .error .bufferUnfit)
      ∨ (s.t.bufferPtr ≠ 0#32 ∧ s.t.bufferPtr.toNat + 2400 ≤ s.params.ramSize
          ∧ fontSource s.params s.t.fontPtr = none ∧ capture s = .error .fontUnfit)
      ∨ ∃ src, s.t.bufferPtr ≠ 0#32 ∧ s.t.bufferPtr.toNat + 2400 ≤ s.params.ramSize
          ∧ fontSource s.params s.t.fontPtr = some src ∧ capture s = .ok (captureScreen s src) := by
  by_cases h : s.t.bufferPtr = 0#32
  · exact .inl ⟨h, by simp [capture, h]⟩
  by_cases h2 : s.t.bufferPtr.toNat + 2400 ≤ s.params.ramSize
  · cases h3 : fontSource s.params s.t.fontPtr with
    | none => exact .inr (.inr (.inl ⟨h, h2, rfl, by simp [capture, h, h2, h3, fitsRam, textBufferSize]⟩))
    | some src =>
      exact .inr (.inr (.inr ⟨src, h, h2, rfl, by simp [capture, h, h2, h3, fitsRam, textBufferSize]⟩))
  · exact .inr (.inl ⟨h, by omega, by simp [capture, h, h2, fitsRam, textBufferSize]⟩)

/-- What the font source of a pointer is (R46). -/
theorem fontSource_cases (ps : Params) (p : Pointer) :
    (p = 0#32 ∧ fontSource ps p = some .builtIn)
      ∨ (p ≠ 0#32 ∧ p.toNat + 2048 ≤ ps.ramSize ∧ fontSource ps p = some (.ram p.toNat))
      ∨ (p ≠ 0#32 ∧ ps.ramSize < p.toNat + 2048 ∧ ps.romBase ≤ p.toNat
          ∧ p.toNat - ps.romBase + 2048 ≤ ps.romSize ∧ fontSource ps p = some (.rom (p.toNat - ps.romBase)))
      ∨ (p ≠ 0#32 ∧ fontRegion ps p = none ∧ fontSource ps p = none) := by
  by_cases h : p = 0#32
  · exact .inl ⟨h, by simp [fontSource, h]⟩
  refine .inr ?_
  by_cases h1 : p.toNat + 2048 ≤ ps.ramSize
  · exact .inl ⟨h, h1, by simp [fontSource, h, fontRegion, fitsRam, fontBufferSize, h1]⟩
  refine .inr ?_
  by_cases h2 : ps.romBase ≤ p.toNat ∧ p.toNat - ps.romBase + 2048 ≤ ps.romSize
  · exact .inl ⟨h, by omega, h2.1, h2.2, by simp [fontSource, h, fontRegion, fitsRam, fitsRom, fontBufferSize, h1, h2]⟩
  · have h3 : fontRegion ps p = none := by
      rw [fontRegion_eq_none]
      omega
    exact .inr ⟨h, h3, by simp [fontSource, h, h3]⟩

/-- The cells of a captured screen (R110). -/
theorem captureScreen_cell (s : State) (src : FontSource) {r c : Nat} (hr : r < 30) (hc : c < 40) :
    (captureScreen s src).cell r c = captureCell s r c := by
  simp [Screen.cell, captureScreen, List.getD_eq_getElem?_getD, hr, hc]

/-- The font of a captured screen (R110). -/
theorem captureScreen_fontByte (s : State) (src : FontSource) {k : Nat} (hk : k < 2048) :
    (captureScreen s src).fontByte k = captureFontByte s src k := by
  simp [Screen.fontByte, captureScreen, fontBufferSize, List.getD_eq_getElem?_getD, hk]

/-- `Render` gives 76800 pixels (R112). -/
theorem renderPixels_length (ps : Params) (scr : Screen) (ctr : BitVec 4) :
    (renderPixels ps scr ctr).length = 76800 := by
  simp [renderPixels]

/-- The pixel at the address of pixel `(x, y)` of cell `(r, c)` (R115). -/
theorem renderPixels_at (ps : Params) (scr : Screen) (ctr : BitVec 4) {r c y x : Nat} (hr : r < 30) (hc : c < 40)
    (hy : y < 8) (hx : x < 8) :
    (renderPixels ps scr ctr)[(x + 8 * c) + 320 * (y + 8 * r)]? = some (framePixel ps scr ctr r c y x) := by
  have h1 : ((x + 8 * c) + 320 * (y + 8 * r)) / 320 / 8 = r := by omega
  have h2 : ((x + 8 * c) + 320 * (y + 8 * r)) % 320 / 8 = c := by omega
  have h3 : ((x + 8 * c) + 320 * (y + 8 * r)) / 320 % 8 = y := by omega
  have h4 : ((x + 8 * c) + 320 * (y + 8 * r)) % 320 % 8 = x := by omega
  have hn : (x + 8 * c) + 320 * (y + 8 * r) < 76800 := by omega
  rw [renderPixels, List.getElem?_map, List.getElem?_range' hn]
  simp only [Option.map_some, Nat.zero_add, Nat.one_mul, h1, h2, h3, h4]

/-- A palette index selects its colour (R24). -/
theorem colour_eq_getElem? (ps : Params) (i : BitVec 4) : some (colour ps i) = ps.palette.toList[i.toNat]? := by
  have hi : i.toNat < 16 := i.isLt
  simp [colour, Vector.get, hi]

end Sys2Proof.Machine
end

