-- ==== Sys2Proof/Laws/Memory.lean ====
section
/-! SUPPORT. The laws of memory: read after write, and the canonical form is kept. -/

namespace Sys2Proof.Machine

theorem Memory.read_cons (i : Nat) (v : Byte) (m : Memory) (a : Nat) :
    Memory.read ((i, v) :: m) a = if i = a then v else Memory.read m a := rfl

/-- An index below every listed one reads 0. -/
theorem Memory.read_of_lt {m : Memory} {a : Nat} (h : ∀ c ∈ m, a < c.1) : m.read a = 0#8 := by
  induction m with
  | nil => rfl
  | cons c m ih =>
    obtain ⟨i, v⟩ := c
    have hi : a < i := h (i, v) (by simp)
    rw [Memory.read_cons, if_neg (by omega)]
    exact ih fun c hc => h c (by simp [hc])

/-- What the canonical form says of a list with a first entry. -/
theorem Memory.wf_cons {i : Nat} {v : Byte} {m : Memory} :
    Memory.wf ((i, v) :: m) ↔ (∀ c ∈ m, i < c.1) ∧ v ≠ 0#8 ∧ m.wf := by
  simp only [Memory.wf, List.map_cons, List.pairwise_cons, List.mem_map, List.mem_cons]
  constructor
  · rintro ⟨⟨h1, h2⟩, h3⟩
    exact ⟨fun c hc => h1 _ ⟨c, hc, rfl⟩, h3 _ (Or.inl rfl), h2, fun c hc => h3 c (Or.inr hc)⟩
  · rintro ⟨h1, h2, h3, h4⟩
    refine ⟨⟨?_, h3⟩, ?_⟩
    · rintro _ ⟨c, hc, rfl⟩
      exact h1 c hc
    · rintro c (rfl | hc)
      · exact h2
      · exact h4 c hc

/-- Every entry after a write is the entry written or was there before. -/
theorem Memory.mem_write {m : Memory} {a : Nat} {v : Byte} {c : Host.Cell} (h : c ∈ m.write a v) :
    (c = (a, v) ∧ v ≠ 0#8) ∨ c ∈ m := by
  induction m with
  | nil =>
    by_cases hv : v = 0#8 <;> simp [Memory.write, hv] at h
    exact .inl ⟨h, hv⟩
  | cons e m ih =>
    obtain ⟨i, w⟩ := e
    simp only [Memory.write] at h
    split_ifs at h with h1 h2 h3 h4
    · exact .inr h
    · rcases List.mem_cons.1 h with h | h
      · exact .inl ⟨h, h2⟩
      · exact .inr h
    · exact .inr (List.mem_cons_of_mem _ h)
    · rcases List.mem_cons.1 h with h | h
      · exact .inl ⟨h, h4⟩
      · exact .inr (List.mem_cons_of_mem _ h)
    · rcases List.mem_cons.1 h with h | h
      · exact .inr (by simp [h])
      · rcases ih h with h | h
        · exact .inl h
        · exact .inr (List.mem_cons_of_mem _ h)

/-- A write keeps the canonical form. -/
theorem Memory.write_wf {m : Memory} (h : m.wf) (a : Nat) (v : Byte) : (m.write a v).wf := by
  induction m with
  | nil =>
    unfold Memory.write
    split_ifs with hv
    · exact h
    · exact Memory.wf_cons.2 ⟨by simp, hv, h⟩
  | cons e m ih =>
    obtain ⟨i, w⟩ := e
    obtain ⟨h1, h2, h3⟩ := Memory.wf_cons.1 h
    simp only [Memory.write]
    split_ifs with ha hv hi hv'
    · exact h
    · refine Memory.wf_cons.2 ⟨?_, hv, h⟩
      intro c hc
      rcases List.mem_cons.1 hc with rfl | hc
      · exact ha
      · exact ha.trans (h1 c hc)
    · exact h3
    · exact Memory.wf_cons.2 ⟨hi ▸ h1, hv', h3⟩
    · refine Memory.wf_cons.2 ⟨?_, h2, ih h3⟩
      intro c hc
      rcases Memory.mem_write hc with ⟨rfl, -⟩ | hc
      · exact lt_of_le_of_ne (Nat.le_of_not_lt ha) fun h => hi h.symm
      · exact h1 c hc

/-- A write below the size keeps every entry below the size. -/
theorem Memory.write_bounded {m : Memory} {size a : Nat} (h : m.bounded size) (ha : a < size) (v : Byte) :
    (m.write a v).bounded size := by
  intro c hc
  rcases Memory.mem_write hc with ⟨rfl, -⟩ | hc
  · exact ha
  · exact h c hc

/-- Everything a write does to every read, in a canonical memory. -/
theorem Memory.read_write {m : Memory} (h : m.wf) (a : Nat) (v : Byte) (x : Nat) :
    (m.write a v).read x = if x = a then v else m.read x := by
  induction m with
  | nil =>
    unfold Memory.write
    split_ifs with hv hx hx
    · exact hv.symm
    · rfl
    · rw [Memory.read_cons, if_pos hx.symm]
    · rw [Memory.read_cons, if_neg (Ne.symm hx)]
  | cons e m ih =>
    obtain ⟨i, w⟩ := e
    obtain ⟨h1, -, h3⟩ := Memory.wf_cons.1 h
    have below : x < i → Memory.read m x = 0#8 := fun hx => Memory.read_of_lt fun c hc => hx.trans (h1 c hc)
    have atI : Memory.read m i = 0#8 := Memory.read_of_lt h1
    simp only [Memory.write]
    split_ifs with ha hv hx hx hi hv' hx hx hx
    · subst hx; rw [Memory.read_cons, if_neg (by omega), below ha, hv]
    · rfl
    · subst hx; simp [Memory.read_cons]
    · rw [Memory.read_cons, if_neg (Ne.symm hx)]
    · subst hx; rw [hi, atI, hv']
    · rw [Memory.read_cons, if_neg (by omega)]
    · subst hx; simp [Memory.read_cons]
    · rw [Memory.read_cons, Memory.read_cons, if_neg (Ne.symm hx), if_neg (by omega)]
    · subst hx; rw [Memory.read_cons, if_neg (by omega), ih h3, if_pos rfl]
    · rw [Memory.read_cons, Memory.read_cons, ih h3, if_neg hx]

/-- The memories at reset are canonical. -/
theorem reset_memories_wf : State.reset.ram.wf ∧ State.reset.rom.wf := by
  simp [State.reset, Memory.wf]

/-- Everything a CPU write can do: it writes the byte, or there is no such index and the machine faults. -/
theorem cpuWrite_cases (a : Nat) (v : Byte) (s : State) :
    (a < s.params.ramSize ∧ cpuWrite a v s = .next (s.setRam (s.ram.write a v)))
      ∨ (s.params.ramSize ≤ a ∧ cpuWrite a v s = .fault (.ramHole a)) := by
  by_cases h : a < s.params.ramSize
  · exact .inl ⟨h, by simp [cpuWrite, h]⟩
  · exact .inr ⟨by omega, by simp [cpuWrite, h]⟩

end Sys2Proof.Machine
end

