-- ==== Sys2Proof/Laws/PerInstr.lean ====
section
/-! SUPPORT. The statements made instruction by instruction: the family `EncodeDecodes`. -/

namespace Sys2Proof.Laws

/-- Decoding the encoding of a well-formed instruction gives it back. -/
def EncodeDecodes.Statement (i : Instr) : Prop :=
  i.wellFormed = true → decode (encode i) = .ok i

/-- A code that is no keyboard command decodes as unrecognized (R61). -/
theorem decodeKbdCommand_of_ge {code : Word} (h : 4 ≤ code.toNat) : decodeKbdCommand code = .kUnrecognized code := by
  unfold decodeKbdCommand
  split <;> first | omega | rfl

/-- A code that is no TDA command decodes as unrecognized (R62). -/
theorem decodeTdaCommand_of_ge {code : Word} (h : 3 ≤ code.toNat) : decodeTdaCommand code = .tUnrecognized code := by
  unfold decodeTdaCommand
  split <;> first | omega | rfl

/-- The two reserved slots (R64). -/
theorem reservedSlot_iff (slot : BitVec 3) : reservedSlot slot = true ↔ slot = 6#3 ∨ slot = 7#3 := by
  simp [reservedSlot]

theorem EncodeDecodes.kClrBuffer : EncodeDecodes.Statement .kClrBuffer :=
  fun _ => rfl

theorem EncodeDecodes.kPullKey : EncodeDecodes.Statement .kPullKey :=
  fun _ => rfl

theorem EncodeDecodes.kPushKey : EncodeDecodes.Statement .kPushKey :=
  fun _ => rfl

theorem EncodeDecodes.kSetInt : EncodeDecodes.Statement .kSetInt :=
  fun _ => rfl

theorem EncodeDecodes.kUnrecognized (code : Word) : EncodeDecodes.Statement (.kUnrecognized code) :=
  fun h => congrArg Except.ok (decodeKbdCommand_of_ge (of_decide_eq_true h))

theorem EncodeDecodes.tMapBuffer : EncodeDecodes.Statement .tMapBuffer :=
  fun _ => rfl

theorem EncodeDecodes.tMapFont : EncodeDecodes.Statement .tMapFont :=
  fun _ => rfl

theorem EncodeDecodes.tSetInt : EncodeDecodes.Statement .tSetInt :=
  fun _ => rfl

theorem EncodeDecodes.tUnrecognized (code : Word) : EncodeDecodes.Statement (.tUnrecognized code) :=
  fun h => congrArg Except.ok (decodeTdaCommand_of_ge (of_decide_eq_true h))

theorem EncodeDecodes.kWrCmd (wdata : Word) : EncodeDecodes.Statement (.kWrCmd wdata) :=
  fun _ => rfl

theorem EncodeDecodes.kRdCmd : EncodeDecodes.Statement .kRdCmd :=
  fun _ => rfl

theorem EncodeDecodes.kWrA (wdata : Word) : EncodeDecodes.Statement (.kWrA wdata) :=
  fun _ => rfl

theorem EncodeDecodes.kRdA : EncodeDecodes.Statement .kRdA :=
  fun _ => rfl

theorem EncodeDecodes.kWrB (wdata : Word) : EncodeDecodes.Statement (.kWrB wdata) :=
  fun _ => rfl

theorem EncodeDecodes.kRdB : EncodeDecodes.Statement .kRdB :=
  fun _ => rfl

theorem EncodeDecodes.kWrC (wdata : Word) : EncodeDecodes.Statement (.kWrC wdata) :=
  fun _ => rfl

theorem EncodeDecodes.kRdC : EncodeDecodes.Statement .kRdC :=
  fun _ => rfl

theorem EncodeDecodes.kWrD (wdata : Word) : EncodeDecodes.Statement (.kWrD wdata) :=
  fun _ => rfl

theorem EncodeDecodes.kRdD : EncodeDecodes.Statement .kRdD :=
  fun _ => rfl

theorem EncodeDecodes.kWrE (wdata : Word) : EncodeDecodes.Statement (.kWrE wdata) :=
  fun _ => rfl

theorem EncodeDecodes.kRdE : EncodeDecodes.Statement .kRdE :=
  fun _ => rfl

theorem EncodeDecodes.kWrReserved (slot : BitVec 3) (wdata : Word) : EncodeDecodes.Statement (.kWrReserved slot wdata) := by
  intro h
  rcases (reservedSlot_iff slot).1 h with rfl | rfl <;> rfl

theorem EncodeDecodes.kRdReserved (slot : BitVec 3) : EncodeDecodes.Statement (.kRdReserved slot) := by
  intro h
  rcases (reservedSlot_iff slot).1 h with rfl | rfl <;> rfl

theorem EncodeDecodes.tWrCmd (wdata : Word) : EncodeDecodes.Statement (.tWrCmd wdata) :=
  fun _ => rfl

theorem EncodeDecodes.tRdCmd : EncodeDecodes.Statement .tRdCmd :=
  fun _ => rfl

theorem EncodeDecodes.tWrA (wdata : Word) : EncodeDecodes.Statement (.tWrA wdata) :=
  fun _ => rfl

theorem EncodeDecodes.tRdA : EncodeDecodes.Statement .tRdA :=
  fun _ => rfl

theorem EncodeDecodes.tWrB (wdata : Word) : EncodeDecodes.Statement (.tWrB wdata) :=
  fun _ => rfl

theorem EncodeDecodes.tRdB : EncodeDecodes.Statement .tRdB :=
  fun _ => rfl

theorem EncodeDecodes.tWrC (wdata : Word) : EncodeDecodes.Statement (.tWrC wdata) :=
  fun _ => rfl

theorem EncodeDecodes.tRdC : EncodeDecodes.Statement .tRdC :=
  fun _ => rfl

theorem EncodeDecodes.tWrD (wdata : Word) : EncodeDecodes.Statement (.tWrD wdata) :=
  fun _ => rfl

theorem EncodeDecodes.tRdD : EncodeDecodes.Statement .tRdD :=
  fun _ => rfl

theorem EncodeDecodes.tWrE (wdata : Word) : EncodeDecodes.Statement (.tWrE wdata) :=
  fun _ => rfl

theorem EncodeDecodes.tRdE : EncodeDecodes.Statement .tRdE :=
  fun _ => rfl

theorem EncodeDecodes.tWrReserved (slot : BitVec 3) (wdata : Word) : EncodeDecodes.Statement (.tWrReserved slot wdata) := by
  intro h
  rcases (reservedSlot_iff slot).1 h with rfl | rfl <;> rfl

theorem EncodeDecodes.tRdReserved (slot : BitVec 3) : EncodeDecodes.Statement (.tRdReserved slot) := by
  intro h
  rcases (reservedSlot_iff slot).1 h with rfl | rfl <;> rfl

theorem EncodeDecodes.kReset : EncodeDecodes.Statement .kReset :=
  fun _ => rfl

theorem EncodeDecodes.kRaise : EncodeDecodes.Statement .kRaise :=
  fun _ => rfl

theorem EncodeDecodes.kPoll : EncodeDecodes.Statement .kPoll :=
  fun _ => rfl

theorem EncodeDecodes.kIack : EncodeDecodes.Statement .kIack :=
  fun _ => rfl

theorem EncodeDecodes.kIsSync : EncodeDecodes.Statement .kIsSync :=
  fun _ => rfl

theorem EncodeDecodes.kGet : EncodeDecodes.Statement .kGet :=
  fun _ => rfl

theorem EncodeDecodes.kSet (snap : Snapshot) : EncodeDecodes.Statement (.kSet snap) := by
  intro h
  have h' : snap.wellFormed = true := h
  simp [encode, active, decode, decodeKbdStrobe, checkSnapshot, h', whenActive]

theorem EncodeDecodes.tReset : EncodeDecodes.Statement .tReset :=
  fun _ => rfl

theorem EncodeDecodes.tRaise : EncodeDecodes.Statement .tRaise :=
  fun _ => rfl

theorem EncodeDecodes.tPoll : EncodeDecodes.Statement .tPoll :=
  fun _ => rfl

theorem EncodeDecodes.tIack : EncodeDecodes.Statement .tIack :=
  fun _ => rfl

theorem EncodeDecodes.tIsSync : EncodeDecodes.Statement .tIsSync :=
  fun _ => rfl

theorem EncodeDecodes.tGet : EncodeDecodes.Statement .tGet :=
  fun _ => rfl

theorem EncodeDecodes.tSet (snap : Snapshot) : EncodeDecodes.Statement (.tSet snap) := by
  intro h
  have h' : snap.wellFormed = true := h
  simp [encode, active, decode, decodeTdaStrobe, checkSnapshot, h', whenActive]

theorem EncodeDecodes.tFrame : EncodeDecodes.Statement .tFrame :=
  fun _ => rfl

theorem EncodeDecodes.tFrameSwap : EncodeDecodes.Statement .tFrameSwap :=
  fun _ => rfl

end Sys2Proof.Laws
end

