-- ==== Sys2Proof/Laws/Runs.lean ====
section
/-! SUPPORT. Runs of operations and of requests, cut in two, and what one step can be. -/

namespace Sys2Proof.Machine

/-- A run of one operation and more. -/
theorem runInstrs_cons_next {i : Instr} {is : List Instr} {s s' : State} (h : exec i s = .next s') :
    runInstrs (i :: is) s = runInstrs is s' := by
  simp only [runInstrs, h]

/-- A run that ends in a next state took its first operation to a next state. -/
theorem runInstrs_cons_eq_next {i : Instr} {is : List Instr} {s t : State} :
    runInstrs (i :: is) s = .next t ↔ ∃ s', exec i s = .next s' ∧ runInstrs is s' = .next t := by
  cases h : exec i s <;> simp [runInstrs, h]

/-- A run of two lists is the second from where the first ends. -/
theorem runInstrs_append_of_next {l m : List Instr} {s s' : State} (h : runInstrs l s = .next s') :
    runInstrs (l ++ m) s = runInstrs m s' := by
  induction l generalizing s with
  | nil => cases h; rfl
  | cons i l ih =>
    obtain ⟨u, h1, h2⟩ := runInstrs_cons_eq_next.1 h
    rw [List.cons_append, runInstrs_cons_next h1, ih h2]

/-- A run of requests that ends in a next state took the first request to a next state. -/
theorem runRequests_cons_eq_next {r : Request} {rs : List Request} {s t : State} :
    runRequests (r :: rs) s = .next t ↔ ∃ s', runRequest r s = .next s' ∧ runRequests rs s' = .next t := by
  cases h : runRequest r s <;> simp [runRequests, h]

/-- Requests in two lists: the second list runs from where the first ends, and a stop of the first is the stop of
both. -/
theorem runRequests_append (l m : List Request) (s : State) :
    runRequests (l ++ m) s =
      match runRequests l s with
      | .next t => runRequests m t
      | .fault f => .fault f
      | .refused why => .refused why := by
  induction l generalizing s with
  | nil => rfl
  | cons r l ih =>
    simp only [List.cons_append, runRequests]
    cases runRequest r s <;> simp [ih]

/-- Everything a request can do: the operation it decodes to, or a refusal by the decoder's reason. -/
theorem runRequest_cases (r : Request) (s : State) :
    (∃ i, decode r = .ok i ∧ runRequest r s = exec i s)
      ∨ ∃ why, decode r = .error why ∧ runRequest r s = .refused (.undecodable why) := by
  cases h : decode r with
  | ok i => exact .inl ⟨i, rfl, by simp [runRequest, h]⟩
  | error why => exact .inr ⟨why, rfl, by simp [runRequest, h]⟩

/-- Everything the frame of a sampled step can do: there is none or it is refused, and nothing changes, or it is the
frame's own outcome (R122, R157). -/
theorem runSampledFrame_cases (frame : Option Instr) (s : State) :
    (frame = none ∧ runSampledFrame frame s = .next s)
      ∨ (∃ i why, frame = some i ∧ exec i s = .refused why ∧ runSampledFrame frame s = .next s)
      ∨ ∃ i, frame = some i ∧ (∀ why, exec i s ≠ .refused why) ∧ runSampledFrame frame s = exec i s := by
  cases frame with
  | none => exact .inl ⟨rfl, rfl⟩
  | some i => cases h : exec i s <;> simp [runSampledFrame, h]

/-- Everything a sampled step can do: its reads and writes, then its frame, or the stop of a read or a write. -/
theorem runSample_cases (d : Device) (p : PortLines) (s : State) :
    (∃ t, runRequests (sampledReads d p ++ sampledWrites d p) s = .next t
        ∧ runSample d p s = runSampledFrame (sampledFrame d p) t)
      ∨ ((∀ t, runRequests (sampledReads d p ++ sampledWrites d p) s ≠ .next t)
        ∧ runSample d p s = runRequests (sampledReads d p ++ sampledWrites d p) s) := by
  cases h : runRequests (sampledReads d p ++ sampledWrites d p) s <;> simp [runSample, h]

/-- Everything a step can be: idle, or the first move of the schedule. -/
theorem step_cases (s : State) :
    (s.inputs = [] ∧ step s = .next s)
      ∨ ∃ input rest, s.inputs = input :: rest ∧ step s = runInput input (s.setInputs rest) := by
  cases h : s.inputs with
  | nil => exact .inl ⟨rfl, by simp [step, h]⟩
  | cons input rest => exact .inr ⟨input, rest, rfl, by simp [step, h]⟩

end Sys2Proof.Machine
end

