-- ==== Sys2Proof/Laws/State.lean ====
section
/-! SUPPORT. What each update of the state does to each field, true by definition. -/

namespace Sys2Proof.Machine

/-- The parameters at reset meet R3's constraints, whatever the opaque ones are. -/
theorem reset_params_wf : State.reset.params.wf :=
  ⟨Nat.succ_pos _, Config.kbdNaming.injective, Config.tdaNaming.injective⟩

@[simp] theorem State.setKbd_params (s : State) (x : Keyboard) : (s.setKbd x).params = s.params := rfl
@[simp] theorem State.setKbd_ram (s : State) (x : Keyboard) : (s.setKbd x).ram = s.ram := rfl
@[simp] theorem State.setKbd_rom (s : State) (x : Keyboard) : (s.setKbd x).rom = s.rom := rfl
@[simp] theorem State.setKbd_k (s : State) (x : Keyboard) : (s.setKbd x).k = x := rfl
@[simp] theorem State.setKbd_t (s : State) (x : Keyboard) : (s.setKbd x).t = s.t := rfl
@[simp] theorem State.setKbd_kOut (s : State) (x : Keyboard) : (s.setKbd x).kOut = s.kOut := rfl
@[simp] theorem State.setKbd_tOut (s : State) (x : Keyboard) : (s.setKbd x).tOut = s.tOut := rfl
@[simp] theorem State.setKbd_inputs (s : State) (x : Keyboard) : (s.setKbd x).inputs = s.inputs := rfl

@[simp] theorem State.setTda_params (s : State) (x : Tda) : (s.setTda x).params = s.params := rfl
@[simp] theorem State.setTda_ram (s : State) (x : Tda) : (s.setTda x).ram = s.ram := rfl
@[simp] theorem State.setTda_rom (s : State) (x : Tda) : (s.setTda x).rom = s.rom := rfl
@[simp] theorem State.setTda_k (s : State) (x : Tda) : (s.setTda x).k = s.k := rfl
@[simp] theorem State.setTda_t (s : State) (x : Tda) : (s.setTda x).t = x := rfl
@[simp] theorem State.setTda_kOut (s : State) (x : Tda) : (s.setTda x).kOut = s.kOut := rfl
@[simp] theorem State.setTda_tOut (s : State) (x : Tda) : (s.setTda x).tOut = s.tOut := rfl
@[simp] theorem State.setTda_inputs (s : State) (x : Tda) : (s.setTda x).inputs = s.inputs := rfl

@[simp] theorem State.setKOut_params (s : State) (x : PortOut) : (s.setKOut x).params = s.params := rfl
@[simp] theorem State.setKOut_ram (s : State) (x : PortOut) : (s.setKOut x).ram = s.ram := rfl
@[simp] theorem State.setKOut_rom (s : State) (x : PortOut) : (s.setKOut x).rom = s.rom := rfl
@[simp] theorem State.setKOut_k (s : State) (x : PortOut) : (s.setKOut x).k = s.k := rfl
@[simp] theorem State.setKOut_t (s : State) (x : PortOut) : (s.setKOut x).t = s.t := rfl
@[simp] theorem State.setKOut_kOut (s : State) (x : PortOut) : (s.setKOut x).kOut = x := rfl
@[simp] theorem State.setKOut_tOut (s : State) (x : PortOut) : (s.setKOut x).tOut = s.tOut := rfl
@[simp] theorem State.setKOut_inputs (s : State) (x : PortOut) : (s.setKOut x).inputs = s.inputs := rfl

@[simp] theorem State.setTOut_params (s : State) (x : PortOut) : (s.setTOut x).params = s.params := rfl
@[simp] theorem State.setTOut_ram (s : State) (x : PortOut) : (s.setTOut x).ram = s.ram := rfl
@[simp] theorem State.setTOut_rom (s : State) (x : PortOut) : (s.setTOut x).rom = s.rom := rfl
@[simp] theorem State.setTOut_k (s : State) (x : PortOut) : (s.setTOut x).k = s.k := rfl
@[simp] theorem State.setTOut_t (s : State) (x : PortOut) : (s.setTOut x).t = s.t := rfl
@[simp] theorem State.setTOut_kOut (s : State) (x : PortOut) : (s.setTOut x).kOut = s.kOut := rfl
@[simp] theorem State.setTOut_tOut (s : State) (x : PortOut) : (s.setTOut x).tOut = x := rfl
@[simp] theorem State.setTOut_inputs (s : State) (x : PortOut) : (s.setTOut x).inputs = s.inputs := rfl

@[simp] theorem State.setRam_params (s : State) (x : Memory) : (s.setRam x).params = s.params := rfl
@[simp] theorem State.setRam_ram (s : State) (x : Memory) : (s.setRam x).ram = x := rfl
@[simp] theorem State.setRam_rom (s : State) (x : Memory) : (s.setRam x).rom = s.rom := rfl
@[simp] theorem State.setRam_k (s : State) (x : Memory) : (s.setRam x).k = s.k := rfl
@[simp] theorem State.setRam_t (s : State) (x : Memory) : (s.setRam x).t = s.t := rfl
@[simp] theorem State.setRam_kOut (s : State) (x : Memory) : (s.setRam x).kOut = s.kOut := rfl
@[simp] theorem State.setRam_tOut (s : State) (x : Memory) : (s.setRam x).tOut = s.tOut := rfl
@[simp] theorem State.setRam_inputs (s : State) (x : Memory) : (s.setRam x).inputs = s.inputs := rfl

@[simp] theorem State.setInputs_params (s : State) (x : List Input) : (s.setInputs x).params = s.params := rfl
@[simp] theorem State.setInputs_ram (s : State) (x : List Input) : (s.setInputs x).ram = s.ram := rfl
@[simp] theorem State.setInputs_rom (s : State) (x : List Input) : (s.setInputs x).rom = s.rom := rfl
@[simp] theorem State.setInputs_k (s : State) (x : List Input) : (s.setInputs x).k = s.k := rfl
@[simp] theorem State.setInputs_t (s : State) (x : List Input) : (s.setInputs x).t = s.t := rfl
@[simp] theorem State.setInputs_kOut (s : State) (x : List Input) : (s.setInputs x).kOut = s.kOut := rfl
@[simp] theorem State.setInputs_tOut (s : State) (x : List Input) : (s.setInputs x).tOut = s.tOut := rfl
@[simp] theorem State.setInputs_inputs (s : State) (x : List Input) : (s.setInputs x).inputs = x := rfl

@[simp] theorem State.kbdReads_params (s : State) (v : Word) : (s.kbdReads v).params = s.params := rfl
@[simp] theorem State.kbdReads_ram (s : State) (v : Word) : (s.kbdReads v).ram = s.ram := rfl
@[simp] theorem State.kbdReads_rom (s : State) (v : Word) : (s.kbdReads v).rom = s.rom := rfl
@[simp] theorem State.kbdReads_k (s : State) (v : Word) : (s.kbdReads v).k = s.k := rfl
@[simp] theorem State.kbdReads_t (s : State) (v : Word) : (s.kbdReads v).t = s.t := rfl
@[simp] theorem State.kbdReads_kOut (s : State) (v : Word) : (s.kbdReads v).kOut = { s.kOut with rdata := some v } := rfl
@[simp] theorem State.kbdReads_tOut (s : State) (v : Word) : (s.kbdReads v).tOut = s.tOut := rfl
@[simp] theorem State.kbdReads_inputs (s : State) (v : Word) : (s.kbdReads v).inputs = s.inputs := rfl

@[simp] theorem State.tdaReads_params (s : State) (v : Word) : (s.tdaReads v).params = s.params := rfl
@[simp] theorem State.tdaReads_ram (s : State) (v : Word) : (s.tdaReads v).ram = s.ram := rfl
@[simp] theorem State.tdaReads_rom (s : State) (v : Word) : (s.tdaReads v).rom = s.rom := rfl
@[simp] theorem State.tdaReads_k (s : State) (v : Word) : (s.tdaReads v).k = s.k := rfl
@[simp] theorem State.tdaReads_t (s : State) (v : Word) : (s.tdaReads v).t = s.t := rfl
@[simp] theorem State.tdaReads_kOut (s : State) (v : Word) : (s.tdaReads v).kOut = s.kOut := rfl
@[simp] theorem State.tdaReads_tOut (s : State) (v : Word) : (s.tdaReads v).tOut = { s.tOut with rdata := some v } := rfl
@[simp] theorem State.tdaReads_inputs (s : State) (v : Word) : (s.tdaReads v).inputs = s.inputs := rfl

end Sys2Proof.Machine
end

