-- ==== Sys2Proof/Tests/Slice0.lean ====
section
/-! SUPPORT. The model's own tests: ill-formed terms are refused, words written out from the spec's encodings decode to
what they stand for, the vectors of `spec/95_test_vectors.md` (cited by their ids), and for every statement with
hypotheses a witness that meets them. -/

open Sys2Proof Sys2Proof.Machine

namespace Sys2Proof.Tests

/-! ## The test instance of `95_test_vectors.md` section 0 -/

/-- The test palette. -/
def palette : Vector Pixel 16 :=
  #v[0xFF00000F#32, 0xFF10010E#32, 0xFF20020D#32, 0xFF30030C#32, 0xFF40040B#32, 0xFF50050A#32, 0xFF600609#32,
    0xFF700708#32, 0xFF800807#32, 0xFF900906#32, 0xFFA00A05#32, 0xFFB00B04#32, 0xFFC00C03#32, 0xFFD00D02#32,
    0xFFE00E01#32, 0xFFF00F00#32]

/-- The bytes of the test font: glyph `0x41` at `0x208`, zeros elsewhere. -/
def fontBytes : List Byte :=
  List.replicate 0x208 0#8 ++ [0x18#8, 0x3C#8, 0x66#8, 0x66#8, 0x7E#8, 0x66#8, 0x66#8, 0x00#8]
    ++ List.replicate 0x5F0 0#8

/-- The test font. -/
def fontRom : Vector Byte 2048 :=
  ⟨fontBytes.toArray, by simp only [fontBytes, List.size_toArray, List.length_append, List.length_replicate, List.length_cons, List.length_nil]⟩

/-- A test map (the spec gives no address): the keyboard's slots from `0x100` on, the TDA's from `0x200` on, the last
two of the TDA at one address. -/
def regMap : RegMap :=
  { kbd := #v[0x100, 0x102, 0x104, 0x106, 0x108, 0x10A, 0x10C, 0x10E]
    tda := #v[0x200, 0x202, 0x204, 0x206, 0x208, 0x20A, 0x20C, 0x20C] }

/-- The parameters of the test instance, `BSIZE` 4, with the placeholder property names of `44_snapshot.md`. -/
def params : Params :=
  { bsize := 4
    ramSize := 0x20000
    romSize := 0x8000
    romBase := 0x100000
    palette := palette
    fontRom := fontRom
    kbdProps :=
      { msg := "msg"
        pending := "pending"
        queue := "queue" }
    tdaProps :=
      { msg := "msg"
        pending := "pending"
        cursor := "cursor"
        blink := "blink"
        bufferPtr := "buffer_ptr"
        fontPtr := "font_ptr" }
    regMap := regMap }

/-- The test instance at reset. -/
def base : State :=
  { State.reset with params := params }

/-- A keyboard with these registers, queue and latch, on the test instance. -/
def kbd (a b c : Word) (q : List Event) (pending : Bool) (msg : Word) : State :=
  { base with
    k :=
      { a := a
        b := b
        c := c
        q := q
        latch :=
          { pending := pending
            msg := msg } } }

/-- A TDA with these registers and pointers, on the test instance; the flags are those of `e`. -/
def tda (a b d e : Word) (buffer font : Pointer) (ctr : BitVec 4) : State :=
  { base with
    t :=
      { Tda.cleared with
        a := a
        b := b
        d := d
        e := e
        bufferPtr := buffer
        fontPtr := font
        cursor := cursorFlag e
        blink := blinkFlag e
        blinkCtr := ctr } }

/-- `tda`, with a latch. -/
def tdaLatch (a : Word) (pending : Bool) (msg : Word) : State :=
  { base with
    t :=
      { Tda.cleared with
        a := a
        latch :=
          { pending := pending
            msg := msg } } }

/-- The RAM of the tests: the cells `(0, 0)` and `(29, 39)` of a text buffer at `0x11000` are `0x0F41`. -/
def ram : Memory :=
  [(0x11000, 0x41#8), (0x11001, 0x0F#8), (0x1195E, 0x41#8), (0x1195F, 0x0F#8)]

/-- The screen of S8 in two cells: text buffer at `0x11000`, built-in font. -/
def screen (d e : Word) (ctr : BitVec 4) : State :=
  { tda 0#16 0#16 d e 0x11000#32 0#32 ctr with ram := ram }

/-- The state of program P5: a user font in RAM, cell `(1, 2)` drawn with it. -/
def p5 : State :=
  { tda 0xF800#16 1#16 0x0102#16 0x0803#16 0x11000#32 0x1F800#32 0#4 with
    ram :=
      [(0x11054, 0x01#8), (0x11055, 0x24#8), (0x1F808, 0xFF#8), (0x1F809, 0x81#8), (0x1F80A, 0x81#8), (0x1F80B, 0x81#8),
        (0x1F80C, 0x81#8), (0x1F80D, 0x81#8), (0x1F80E, 0x81#8), (0x1F80F, 0xFF#8)] }

/-- What `f` reads after the operation `i`; none where it stops. -/
def after {α : Type} (i : Instr) (s : State) (f : State → α) : Option α :=
  match exec i s with
  | .next t => some (f t)
  | _ => none

/-- What `f` reads after a run; none where it stops. -/
def afterRun {α : Type} (is : List Instr) (s : State) (f : State → α) : Option α :=
  match runInstrs is s with
  | .next t => some (f t)
  | _ => none

/-- What `f` reads after one step; none where it stops. -/
def afterStep {α : Type} (s : State) (f : State → α) : Option α :=
  match step s with
  | .next t => some (f t)
  | _ => none

/-- Pixel `n` of the frame an operation gives. -/
def pixel (i : Instr) (s : State) (n : Nat) : Option Pixel :=
  match exec i s with
  | .next t => t.tOut.frame.bind fun px => px[n]?
  | _ => none

/-! ## Ill-formed terms -/

theorem test_unrecognized_kbd_command_refused : (Instr.kUnrecognized 0x0003#16).wellFormed = false := by decide
theorem test_unrecognized_tda_command_refused : (Instr.tUnrecognized 0x0002#16).wellFormed = false := by decide
theorem test_reserved_kbd_write_slot_refused : (Instr.kWrReserved 5#3 0#16).wellFormed = false := by decide
theorem test_reserved_kbd_read_slot_refused : (Instr.kRdReserved 0#3).wellFormed = false := by decide
theorem test_reserved_tda_write_slot_refused : (Instr.tWrReserved 3#3 0#16).wellFormed = false := by decide
theorem test_reserved_tda_read_slot_refused : (Instr.tRdReserved 5#3).wellFormed = false := by decide

/-- A snapshot that names one property twice (R27). -/
def twice : Snapshot :=
  { regs := [0#16, 0#16, 0#16, 0#16, 0#16]
    props := [("msg", .int 1), ("msg", .int 2)] }

theorem test_kbd_snapshot_with_repeated_name_refused : (Instr.kSet twice).wellFormed = false := by decide
theorem test_tda_snapshot_with_repeated_name_refused : (Instr.tSet twice).wellFormed = false := by decide
theorem test_repeated_name_undecodable : decode (.strobe .kbd (.snapSet twice) 0b01#2) = .error .repeatedProperty := by
  decide
theorem test_inactive_strobe_undecodable : decode (.strobe .tda .rst 0b00#2) = .error .strobeInactive := by decide
theorem test_swap_without_request_undecodable : decode (.strobe .tda .frame 0b01#2) = .error .strobeInactive := by
  decide
theorem test_frame_on_keyboard_undecodable : decode (.strobe .kbd .frame 0b10#2) = .error .noFrameOnKeyboard := by
  decide
theorem test_wide_pattern_undecodable : decode (.bus .kbd 0b00011000#8 0#16) = .error .patternTooWide := by decide

/-! ## Decoding: words written out from R61, R62, R64, R68 -/

/-- Every row of formats `CMD_K` and `CMD_T`. -/
theorem test_decode_commands :
    decode (.cmd .kbd 0b0000000000000000#16) = .ok .kClrBuffer
      ∧ decode (.cmd .kbd 0b0000000000000001#16) = .ok .kPullKey
      ∧ decode (.cmd .kbd 0b0000000000000010#16) = .ok .kPushKey
      ∧ decode (.cmd .kbd 0b0000000000000011#16) = .ok .kSetInt
      ∧ decode (.cmd .kbd 0b0000000000000100#16) = .ok (.kUnrecognized 0x0004#16)
      ∧ decode (.cmd .kbd 0b1000000000000001#16) = .ok (.kUnrecognized 0x8001#16)
      ∧ decode (.cmd .tda 0b0000000000000000#16) = .ok .tMapBuffer
      ∧ decode (.cmd .tda 0b0000000000000001#16) = .ok .tMapFont
      ∧ decode (.cmd .tda 0b0000000000000010#16) = .ok .tSetInt
      ∧ decode (.cmd .tda 0b0000000000000011#16) = .ok (.tUnrecognized 0x0003#16)
      ∧ decode (.cmd .tda 0b0000000100000000#16) = .ok (.tUnrecognized 0x0100#16) := by
  decide

/-- Every row of format `SLOT_K`. -/
theorem test_decode_kbd_slots :
    decode (.bus .kbd 0b1000#8 0x0003#16) = .ok (.kWrCmd 0x0003#16)
      ∧ decode (.bus .kbd 0b0000#8 0#16) = .ok .kRdCmd
      ∧ decode (.bus .kbd 0b1001#8 0xBEEF#16) = .ok (.kWrA 0xBEEF#16) ∧ decode (.bus .kbd 0b0001#8 0#16) = .ok .kRdA
      ∧ decode (.bus .kbd 0b1010#8 0x001E#16) = .ok (.kWrB 0x001E#16) ∧ decode (.bus .kbd 0b0010#8 0#16) = .ok .kRdB
      ∧ decode (.bus .kbd 0b1011#8 0xFFFA#16) = .ok (.kWrC 0xFFFA#16) ∧ decode (.bus .kbd 0b0011#8 0#16) = .ok .kRdC
      ∧ decode (.bus .kbd 0b1100#8 0x1234#16) = .ok (.kWrD 0x1234#16) ∧ decode (.bus .kbd 0b0100#8 0#16) = .ok .kRdD
      ∧ decode (.bus .kbd 0b1101#8 0xFFFF#16) = .ok (.kWrE 0xFFFF#16) ∧ decode (.bus .kbd 0b0101#8 0#16) = .ok .kRdE
      ∧ decode (.bus .kbd 0b1110#8 1#16) = .ok (.kWrReserved 6#3 1#16)
      ∧ decode (.bus .kbd 0b1111#8 1#16) = .ok (.kWrReserved 7#3 1#16)
      ∧ decode (.bus .kbd 0b0110#8 0#16) = .ok (.kRdReserved 6#3)
      ∧ decode (.bus .kbd 0b0111#8 0#16) = .ok (.kRdReserved 7#3) := by
  decide

/-- Every row of format `SLOT_T`. -/
theorem test_decode_tda_slots :
    decode (.bus .tda 0b1000#8 0x0002#16) = .ok (.tWrCmd 0x0002#16)
      ∧ decode (.bus .tda 0b0000#8 0#16) = .ok .tRdCmd
      ∧ decode (.bus .tda 0b1001#8 0x1000#16) = .ok (.tWrA 0x1000#16) ∧ decode (.bus .tda 0b0001#8 0#16) = .ok .tRdA
      ∧ decode (.bus .tda 0b1010#8 0x0001#16) = .ok (.tWrB 0x0001#16) ∧ decode (.bus .tda 0b0010#8 0#16) = .ok .tRdB
      ∧ decode (.bus .tda 0b1011#8 0x1234#16) = .ok (.tWrC 0x1234#16) ∧ decode (.bus .tda 0b0011#8 0#16) = .ok .tRdC
      ∧ decode (.bus .tda 0b1100#8 0x1D27#16) = .ok (.tWrD 0x1D27#16) ∧ decode (.bus .tda 0b0100#8 0#16) = .ok .tRdD
      ∧ decode (.bus .tda 0b1101#8 0x0FEE#16) = .ok (.tWrE 0x0FEE#16) ∧ decode (.bus .tda 0b0101#8 0#16) = .ok .tRdE
      ∧ decode (.bus .tda 0b1110#8 1#16) = .ok (.tWrReserved 6#3 1#16)
      ∧ decode (.bus .tda 0b1111#8 1#16) = .ok (.tWrReserved 7#3 1#16)
      ∧ decode (.bus .tda 0b0110#8 0#16) = .ok (.tRdReserved 6#3)
      ∧ decode (.bus .tda 0b0111#8 0#16) = .ok (.tRdReserved 7#3) := by
  decide

/-- The snapshot of V-S4: five registers and no properties. -/
def fiveRegs : Snapshot :=
  { regs := [1#16, 2#16, 3#16, 4#16, 5#16]
    props := [] }

/-- Every row of formats `STROBE_K` and `STROBE_T`. -/
theorem test_decode_strobes :
    decode (.strobe .kbd .rst 0b01#2) = .ok .kReset ∧ decode (.strobe .tda .rst 0b01#2) = .ok .tReset
      ∧ decode (.strobe .kbd .intSet 0b01#2) = .ok .kRaise ∧ decode (.strobe .tda .intSet 0b01#2) = .ok .tRaise
      ∧ decode (.strobe .kbd .irq 0b01#2) = .ok .kPoll ∧ decode (.strobe .tda .irq 0b01#2) = .ok .tPoll
      ∧ decode (.strobe .kbd .iack 0b01#2) = .ok .kIack ∧ decode (.strobe .tda .iack 0b01#2) = .ok .tIack
      ∧ decode (.strobe .kbd .syncDev 0b01#2) = .ok .kIsSync ∧ decode (.strobe .tda .syncDev 0b01#2) = .ok .tIsSync
      ∧ decode (.strobe .kbd .snapGet 0b01#2) = .ok .kGet ∧ decode (.strobe .tda .snapGet 0b01#2) = .ok .tGet
      ∧ decode (.strobe .kbd (.snapSet fiveRegs) 0b01#2) = .ok (.kSet fiveRegs)
      ∧ decode (.strobe .tda (.snapSet fiveRegs) 0b01#2) = .ok (.tSet fiveRegs)
      ∧ decode (.strobe .tda .frame 0b10#2) = .ok .tFrame ∧ decode (.strobe .tda .frame 0b11#2) = .ok .tFrameSwap := by
  decide

/-- Words of the opcode table, on the default device and on the TDA (log 7). -/
theorem test_decode_table_words :
    decodeTableWord 16 0x0002 = some .kPushKey ∧ decodeTableWord 16 0x8000 = some (.kUnrecognized 0x8000#16)
      ∧ decodeTableWord 8 0x9 = some (.kWrA 0#16) ∧ decodeTableWord 8 0x6 = some (.kRdReserved 6#3)
      ∧ decodeTableWord 8 0x10 = none ∧ decodeTableWord 16 0x10000 = none
      ∧ decodeTableWordFor .tda 16 0x0000 = some .tMapBuffer ∧ decodeTableWordFor .tda 16 0x0001 = some .tMapFont
      ∧ decodeTableWordFor .tda 16 0x0002 = some .tSetInt
      ∧ decodeTableWordFor .tda 16 0x0003 = some (.tUnrecognized 3#16)
      ∧ decodeTableWordFor .tda 8 0xD = some (.tWrE 0#16) := by
  decide

/-- A table word placed at reset runs as the first operation: `PULL_KEY` on the empty queue. -/
theorem test_fetched_word_runs :
    afterStep (State.reset.withFetchWord 16 0x0001) (fun t => (t.k.a, t.k.q, t.inputs)) = some (0#16, [], []) := by
  decide

/-! ## Register access (V-R) -/

/-- V-R1, V-R2. -/
theorem test_kbd_writes_keep_sixteen_bits :
    after (.kWrA 0xBEEF#16) base (·.k.a) = some 0xBEEF#16 ∧ after (.kWrC 0xFFFA#16) base (·.k.c) = some 0xFFFA#16
      ∧ after (.kWrB 0x001E#16) base (·.k.b) = some 0x001E#16 := by
  decide

/-- V-R3, V-R4, V-R5: slots without storage. -/
theorem test_slots_without_storage :
    afterRun [.kWrD 0x1234#16, .kRdD] base (·.kOut.rdata) = some (some 0#16)
      ∧ afterRun [.kWrE 0xFFFF#16, .kRdE] base (·.kOut.rdata) = some (some 0#16)
      ∧ afterRun [.tWrC 0x1234#16, .tRdC] base (·.tOut.rdata) = some (some 0#16) := by
  decide

/-- V-R6 to V-R10: the flags follow bits 11 and 7. -/
theorem test_write_e_sets_the_flags :
    after (.tWrE 0x0FEE#16) base (fun t => (t.t.e, t.t.cursor, t.t.blink)) = some (0x0FEE#16, true, true)
      ∧ after (.tWrE 0x076E#16) base (fun t => (t.t.cursor, t.t.blink)) = some (false, false)
      ∧ afterRun [.tWrE 0xF000#16, .tRdE] base (fun t => (t.tOut.rdata, t.t.cursor, t.t.blink))
          = some (some 0xF000#16, false, false)
      ∧ after (.tWrE 0x0800#16) base (fun t => (t.t.cursor, t.t.blink)) = some (true, false)
      ∧ after (.tWrE 0x0080#16) base (fun t => (t.t.cursor, t.t.blink)) = some (false, true) := by
  decide

/-- V-R11 and V-R15. -/
theorem test_tda_writes :
    after (.tWrD 0x1D27#16) base (·.t.d) = some 0x1D27#16
      ∧ afterRun [.tWrA 0x2000#16, .tWrB 0#16] (screen 0#16 0#16 0#4) (fun t => (t.t.a, t.t.bufferPtr))
          = some (0x2000#16, 0x11000#32) := by
  decide

/-- V-R12, V-R13: slot 0 and the reserved slots read 0. -/
theorem test_zero_reads :
    after .kRdCmd (kbd 7#16 7#16 7#16 [] true 7#16) (·.kOut.rdata) = some (some 0#16)
      ∧ after (.kRdReserved 6#3) base (·.kOut.rdata) = some (some 0#16)
      ∧ after (.tRdReserved 7#3) base (·.tOut.rdata) = some (some 0#16)
      ∧ after .tRdCmd base (·.tOut.rdata) = some (some 0#16) := by
  decide

/-- V-R14: a read does not pop the queue. -/
theorem test_reads_return_the_registers :
    afterRun [.kRdA, .kRdA] (kbd 7#16 8#16 9#16 [0x0241001E#32] false 0#16) (fun t => (t.kOut.rdata, t.k.q))
        = some (some 7#16, [0x0241001E#32])
      ∧ after .kRdB (kbd 7#16 8#16 9#16 [] false 0#16) (·.kOut.rdata) = some (some 8#16)
      ∧ after .kRdC (kbd 7#16 8#16 9#16 [] false 0#16) (·.kOut.rdata) = some (some 9#16)
      ∧ after .tRdA (tda 1#16 2#16 3#16 4#16 0#32 0#32 0#4) (·.tOut.rdata) = some (some 1#16)
      ∧ after .tRdB (tda 1#16 2#16 3#16 4#16 0#32 0#32 0#4) (·.tOut.rdata) = some (some 2#16)
      ∧ after .tRdD (tda 1#16 2#16 3#16 4#16 0#32 0#32 0#4) (·.tOut.rdata) = some (some 3#16) := by
  decide

/-! ## Keyboard commands (V-K, S1, S9, P2) -/

/-- V-K2: unused bits are dropped. -/
theorem test_push_then_pull :
    after .kPushKey (kbd 0xFF41#16 0xFFFF#16 0xFFFA#16 [] false 0#16) (fun t => (t.k.q, t.k.a, t.k.c))
        = some ([0x0241FFFF#32], 0xFF41#16, 0xFFFA#16)
      ∧ afterRun [.kPushKey, .kPullKey] (kbd 0xFF41#16 0xFFFF#16 0xFFFA#16 [] false 0#16)
          (fun t => (t.k.a, t.k.b, t.k.c, t.k.q)) = some (0x0041#16, 0xFFFF#16, 0x0002#16, []) := by
  decide

/-- V-K5, V-K6: bits 31:27 are ignored; a pull on empty zeroes. -/
theorem test_pull :
    after .kPullKey (kbd 0#16 0#16 0#16 [0xFA41001E#32] false 0#16) (fun t => (t.k.a, t.k.b, t.k.c))
        = some (0x0041#16, 0x001E#16, 0x0002#16)
      ∧ after .kPullKey (kbd 0x1111#16 0x2222#16 0x3333#16 [] false 0#16) (fun t => (t.k.a, t.k.b, t.k.c))
        = some (0#16, 0#16, 0#16) := by
  decide

/-- S1: the oldest event is the last of the list. -/
theorem test_pull_takes_the_oldest :
    after .kPullKey (kbd 0#16 0#16 0#16 [0x04120003#32, 0x01110002#32, 0x00100001#32] false 0#16)
        (fun t => (t.k.q, t.k.a)) = some ([0x04120003#32, 0x01110002#32], 0x0010#16) := by
  decide

/-- V-K7: a full queue drops the new event. -/
theorem test_push_on_full :
    after .kPushKey (kbd 0x0055#16 0x0066#16 1#16 [4#32, 3#32, 2#32, 1#32] false 0#16) (·.k.q)
      = some [4#32, 3#32, 2#32, 1#32] := by
  decide

/-- V-K9, through slot 0. -/
theorem test_clear :
    after (.kWrCmd 0x0000#16) (kbd 1#16 2#16 3#16 [0x0241001E#32, 0x00300020#32] true 9#16)
      (fun t => (t.k.q, t.k.a, t.k.latch)) = some ([], 1#16, ⟨true, 9#16⟩) := by
  decide

/-- V-K11, V-K13. -/
theorem test_set_int_and_unrecognized :
    after .kSetInt (kbd 9#16 0#16 0#16 [] false 0#16) (·.k.latch) = some ⟨false, 9#16⟩
      ∧ after (.kWrCmd 0x0100#16) (kbd 9#16 0#16 0#16 [1#32] false 0#16) (·.k) =
          some (kbd 9#16 0#16 0#16 [1#32] false 0#16).k := by
  decide

/-! ## TDA commands (V-T) -/

/-- V-T1 to V-T6. -/
theorem test_map_buffer :
    after .tMapBuffer (tda 0xF6A0#16 1#16 0#16 0#16 0x11000#32 0#32 0#4) (·.t.bufferPtr) = some 0x1F6A0#32
      ∧ after .tMapBuffer (tda 0xF6A1#16 1#16 0#16 0#16 0x11000#32 0#32 0#4) (·.t.bufferPtr) = some 0x11000#32
      ∧ after .tMapBuffer (tda 0xFFFF#16 0xFFFF#16 0#16 0#16 0x11000#32 0#32 0#4) (·.t.bufferPtr) = some 0x11000#32
      ∧ after .tMapBuffer (tda 0#16 0#16 0#16 0#16 0x11000#32 0#32 0#4) (·.t.bufferPtr) = some 0#32
      ∧ after (.tWrCmd 0#16) (tda 0#16 0x0010#16 0#16 0#16 0#32 0#32 0#4) (·.t.bufferPtr) = some 0#32 := by
  decide

/-- V-T7 to V-T13. -/
theorem test_map_font :
    after .tMapFont (tda 0xF800#16 1#16 0#16 0#16 0#32 0#32 0#4) (·.t.fontPtr) = some 0x1F800#32
      ∧ after .tMapFont (tda 0xF801#16 1#16 0#16 0#16 0#32 0x1F800#32 0#4) (·.t.fontPtr) = some 0x1F800#32
      ∧ after .tMapFont (tda 0x7800#16 0x0010#16 0#16 0#16 0#32 0#32 0#4) (·.t.fontPtr) = some 0x107800#32
      ∧ after .tMapFont (tda 0x7801#16 0x0010#16 0#16 0#16 0#32 0x100000#32 0#4) (·.t.fontPtr) = some 0x100000#32
      ∧ after .tMapFont (tda 0xFFFF#16 0x000F#16 0#16 0#16 0#32 0x100000#32 0#4) (·.t.fontPtr) = some 0x100000#32
      ∧ after (.tWrCmd 1#16) (tda 0#16 0#16 0#16 0#16 0#32 0x1F800#32 0#4) (·.t.fontPtr) = some 0#32 := by
  decide

/-- V-T14, V-T15, V-T17. -/
theorem test_tda_set_int_and_unrecognized :
    after .tSetInt (tdaLatch 0x005A#16 true 0#16) (·.t.latch) = some ⟨true, 0x005A#16⟩
      ∧ after (.tWrCmd 0x0003#16) (tdaLatch 0x005A#16 true 0#16) (·.t.latch) = some ⟨true, 0#16⟩
      ∧ after .tIsSync base (·.tOut.sync) = some (some false)
      ∧ after .kIsSync base (·.kOut.sync) = some (some false) := by
  decide

/-! ## Interrupts (V-I) and reset (V-Z) -/

/-- V-I1, V-I3, V-I5: the flag of a poll. -/
theorem test_poll :
    afterRun [.kRaise, .kPoll] (kbd 0#16 0#16 0#16 [] false 0#16) (fun t => (t.kOut.irq.map (·.1), t.k.latch))
        = some (some false, ⟨true, 0#16⟩)
      ∧ afterRun [.kPoll, .kPoll] (kbd 0#16 0#16 0#16 [] true 9#16) (fun t => (t.kOut.irq, t.k.latch))
        = some (some (true, 9#16), ⟨true, 9#16⟩)
      ∧ afterRun [.tRaise, .tPoll] (tdaLatch 0#16 false 9#16) (·.tOut.irq) = some (some (true, 9#16)) := by
  decide

/-- V-I4, V-I10. -/
theorem test_iack :
    after .kIack (kbd 0#16 0#16 0#16 [] true 9#16) (·.k.latch) = some ⟨false, 9#16⟩
      ∧ after .tIack (tdaLatch 0#16 true 0#16) (·.t.latch) = some ⟨false, 0#16⟩ := by
  decide

/-- V-Z1, V-Z2, V-Z3. -/
theorem test_reset :
    after .kReset (kbd 1#16 2#16 3#16 [5#32, 6#32] true 9#16) (·.k) = some Keyboard.cleared
      ∧ after .tReset (tda 1#16 2#16 3#16 0xFFF#16 4#32 5#32 6#4) (·.t) = some Tda.cleared
      ∧ after .kReset (tda 1#16 2#16 3#16 4#16 5#32 6#32 7#4) (·.t.blinkCtr) = some 7#4 := by
  decide

/-- V-I8: `IACK` and `RAISE` in one step leave the flag set. -/
theorem test_iack_and_raise_together :
    afterStep
        { tdaLatch 0#16 true 9#16 with
          inputs :=
            [.sample .tda
              { iack := true
                intSet := true }] }
        (·.t.latch) = some ⟨true, 9#16⟩ := by
  decide

/-- V-Z4: `rst` wins over a write and `int_set`; the read of the same step sees the state before it (R157). -/
theorem test_reset_wins :
    afterStep
        { kbd 1#16 2#16 3#16 [] true 9#16 with
          inputs :=
            [.sample .kbd
              { rst := true
                busEn := true
                busWe := true
                busSlot := 1#3
                busWdata := 7#16
                intSet := true
                irqRead := true }] }
        (fun t => (t.k.a, t.k.latch.pending, t.kOut.irq)) = some (0#16, false, some (true, 9#16)) := by
  decide

/-- A refused frame is lost alone: the bus write and `int_set` of the same step have their effect (R122, R157). -/
theorem test_refused_frame_keeps_the_step :
    afterStep
        { base with
          inputs :=
            [.sample .tda
              { busEn := true
                busWe := true
                busSlot := 1#3
                busWdata := 7#16
                intSet := true
                frameReq := true }] }
        (fun t => (t.t.a, t.t.latch.pending, t.t.blinkCtr, t.tOut.frame)) = some (7#16, true, 0#4, none) := by
  decide

/-- A frame in the same step as a `MAP_BUFFER` uses the new pointer (R157). -/
theorem test_frame_uses_the_pointer_mapped_in_its_step :
    afterStep
        { tda 0x1000#16 1#16 0#16 0#16 0#32 0#32 5#4 with
          inputs :=
            [.sample .tda
              { busEn := true
                busWe := true
                frameReq := true }] }
        (fun t => (t.t.bufferPtr, t.t.blinkCtr)) = some (0x11000#32, 6#4) := by
  decide

/-! ## The rasterizer (V-X, S8, P5) -/

/-- S7: lane exchange. -/
theorem test_swap_lanes :
    swapLanes 0xAABBCCDD#32 = 0xAADDCCBB#32 ∧ swapLanes 0x12345678#32 = 0x12785634#32
      ∧ swapLanes 0xFF7F107F#32 = 0xFF7F107F#32 := by
  decide

/-- S8, call 0: glyph rows of `0x3C` and `0x18`, and the cursor on rows 6 and 7. -/
theorem test_frame_with_cursor :
    pixel .tFrame (screen 0#16 0x0FEE#16 0#4) 0 = some 0xFF00000F#32
      ∧ pixel .tFrame (screen 0#16 0x0FEE#16 0#4) 3 = some 0xFFF00F00#32
      ∧ pixel .tFrame (screen 0#16 0x0FEE#16 7#4) 1927 = some 0xFFE00E01#32
      ∧ pixel .tFrame (screen 0#16 0x0FEE#16 0#4) 1928 = some 0xFF00000F#32 := by
  decide +kernel

/-- S8, call 8: the cursor's phase is off. -/
theorem test_frame_phase_off :
    pixel .tFrame (screen 0#16 0x0FEE#16 8#4) 1920 = some 0xFF00000F#32
      ∧ pixel .tFrame (screen 0#16 0x0FEE#16 8#4) 1921 = some 0xFFF00F00#32
      ∧ after .tFrame (screen 0#16 0x0FEE#16 15#4) (·.t.blinkCtr) = some 0#4 := by
  decide +kernel

/-- V-X13: the swapped frame, and one step of the counter. -/
theorem test_swapped_frame :
    pixel .tFrameSwap (screen 0#16 0x0FEE#16 0#4) 3 = some 0xFF000FF0#32
      ∧ pixel .tFrameSwap (screen 0#16 0x0FEE#16 0#4) 1920 = some 0xFF010EE0#32
      ∧ after .tFrameSwap (screen 0#16 0x0FEE#16 0#4) (·.t.blinkCtr) = some 1#4 := by
  decide +kernel

/-- P5: a user font in RAM and a steady cursor on scan line 0, still drawn at counter 9. -/
theorem test_user_font :
    pixel .tFrame { p5 with t := { p5.t with blinkCtr := 9#4 } } 2576 = some 0xFF30030C#32
      ∧ pixel .tFrame p5 2896 = some 0xFF40040B#32 ∧ pixel .tFrame p5 2897 = some 0xFF20020D#32 := by
  decide +kernel

/-- V-X12, V-S12: frames without usable pointers are refused. -/
theorem test_frame_refused :
    exec .tFrame (tda 0#16 0#16 0#16 0#16 0#32 0#32 5#4) = .refused .bufferUnmapped
      ∧ exec .tFrame (tda 0#16 0#16 0#16 0#16 0x1F6A1#32 0#32 0#4) = .refused .bufferUnfit
      ∧ exec .tFrameSwap (tda 0#16 0#16 0#16 0#16 0x11000#32 0x1F801#32 0#4) = .refused .fontUnfit := by
  exact ⟨rfl, rfl, rfl⟩

/-! ## Snapshots (V-S) -/

/-- V-S1. -/
theorem test_kbd_get :
    after .kGet (kbd 0x0041#16 0x001E#16 2#16 [0x01100011#32, 0x0241001E#32] true 9#16) (·.kOut.snap)
      = some (some
          { regs := [0x0041#16, 0x001E#16, 2#16, 0#16, 0#16]
            props :=
              [("msg", .int 9), ("pending", .bool true),
                ("queue", .raw [0x11#8, 0x00#8, 0x10#8, 0x01#8, 0x1E#8, 0x00#8, 0x41#8, 0x02#8])] }) := by
  decide

/-- P4, line 5. -/
theorem test_tda_get :
    after .tGet (tda 0#16 0x0010#16 0#16 0x0FEE#16 0x11000#32 0x100000#32 1#4) (·.tOut.snap)
      = some (some
          { regs := [0#16, 0x0010#16, 0#16, 0#16, 0x0FEE#16]
            props :=
              [("msg", .int 0), ("pending", .bool false), ("cursor", .bool true), ("blink", .bool true),
                ("buffer_ptr", .int 0x11000), ("font_ptr", .int 0x100000)] }) := by
  decide

/-- A snapshot of five zero registers with these properties. -/
def zeros (props : List (String × PropValue)) : Snapshot :=
  { regs := [0#16, 0#16, 0#16, 0#16, 0#16]
    props := props }

/-- V-S5, V-S7, V-S8: a ninth byte, a wrong type, a wide message. -/
theorem test_kbd_set :
    after (.kSet (zeros
          [("queue", .raw [0x11#8, 0#8, 0x10#8, 1#8, 0x1E#8, 0#8, 0x41#8, 2#8, 0xAA#8]), ("pending", .int 1),
            ("colour", .int 3), ("msg", .int 0x12345)]))
        base (fun t => (t.k.q, t.k.latch, t.kOut.snapOk))
      = some ([0x01100011#32, 0x0241001E#32], ⟨false, 0x2345#16⟩, some true) := by
  decide

/-- V-S3, V-S6: four registers fail; an overlong blob loses the words nearest the front. -/
theorem test_kbd_set_short_and_overlong :
    after (.kSet
          { regs := [1#16, 2#16, 3#16, 4#16]
            props := [("msg", .int 1)] })
        base (fun t => (t.k, t.kOut.snapOk)) = some (Keyboard.cleared, some false)
      ∧ after (.kSet (zeros [("queue", .raw
            [5#8, 0#8, 0#8, 0#8, 4#8, 0#8, 0#8, 0#8, 3#8, 0#8, 0#8, 0#8, 2#8, 0#8, 0#8, 0#8, 1#8, 0#8, 0#8, 0#8])]))
          base (·.k.q) = some [4#32, 3#32, 2#32, 1#32] := by
  decide

/-- V-S10: the font pointer goes to the font pointer. -/
theorem test_tda_set_font_pointer :
    after (.tSet (zeros [("font_ptr", .int 0x100000)])) base (fun t => (t.t.bufferPtr, t.t.fontPtr))
      = some (0#32, 0x100000#32) := by
  decide

/-- V-S13: the flags come from properties, not from `e`. -/
theorem test_tda_set_flags :
    after (.tSet
          { regs := [0#16, 0#16, 0#16, 0#16, 0x0FEE#16]
            props := [("cursor", .bool false)] })
        base (fun t => (t.t.e, t.t.cursor, t.t.blink)) = some (0x0FEE#16, false, false) := by
  decide

/-! ## Bus addresses -/

/-- An access at a slot's address is the transaction on that slot; at an address of no slot nothing happens. -/
theorem test_bus_access :
    afterStep { base with inputs := [.busAccess 0x102 true 7#16] } (·.k.a) = some 7#16
      ∧ afterStep { kbd 0#16 8#16 0#16 [] false 0#16 with inputs := [.busAccess 0x104 false 7#16] }
          (fun t => (t.k.b, t.kOut.rdata)) = some (8#16, some 8#16)
      ∧ afterStep { base with inputs := [.busAccess 0x20A true 0x800#16] } (·.t.cursor) = some true
      ∧ afterStep { base with inputs := [.busAccess 0x101 true 7#16] } (fun t => (t.k, t.t, t.inputs))
          = some (base.k, base.t, []) := by
  decide

/-! ## Memory -/

/-- A CPU write is seen by the next read, keeps the canonical form, and faults outside RAM. -/
theorem test_cpu_write :
    afterStep { base with inputs := [.cpuWrite 5 0x41#8] } (·.ram) = some [(5, 0x41#8)]
      ∧ afterStep
          { base with
            ram := [(5, 0x41#8)]
            inputs := [.cpuWrite 5 0#8] }
          (·.ram) = some []
      ∧ step { base with inputs := [.cpuWrite 0x20000 1#8] } = .fault (.ramHole 0x20000) := by
  refine ⟨?_, ?_, rfl⟩ <;> decide

/-! ## Witnesses: for each statement with hypotheses, states and operands that meet them, clause by clause -/

/-- The test instance with one move scheduled. -/
def withInput (s : State) (input : Input) : State :=
  { s with inputs := [input] }

theorem witness_StepRunsTheDecodedRequest :
    (withInput base (.request (.cmd .kbd 2#16))).inputs = [.request (.cmd .kbd 2#16)]
      ∧ decode (.cmd .kbd 2#16) = .ok .kPushKey := ⟨rfl, rfl⟩

theorem witness_EmptyScheduleIsIdle : State.reset.inputs = [] := rfl

theorem witness_UndecodableRequestIsRefused :
    (withInput base (.request (.bus .kbd 0x10#8 0#16))).inputs = [.request (.bus .kbd 0x10#8 0#16)]
      ∧ decode (.bus .kbd 0x10#8 0#16) = .error .patternTooWide := ⟨rfl, rfl⟩

theorem witness_FetchedTableWordRuns :
    decodeTableWord 16 0xFFFF = some (.kUnrecognized 0xFFFF#16) ∧ decodeTableWord 8 0xF = some (.kWrReserved 7#3 0#16) := by
  decide

theorem witness_DecodeInvertsEncode :
    (Instr.kUnrecognized 0x0004#16).wellFormed = true ∧ (Instr.tUnrecognized 0x0003#16).wellFormed = true
      ∧ (Instr.tUnrecognized 0xFFFF#16).wellFormed = true ∧ (Instr.kWrReserved 7#3 0xFFFF#16).wellFormed = true
      ∧ (Instr.kSet fiveRegs).wellFormed = true ∧ Instr.tFrameSwap.wellFormed = true := by
  decide

theorem witness_DecodedRunsOnItsDevice :
    decode (.cmd .tda 0x0003#16) = .ok (.tUnrecognized 3#16) ∧ decode (.bus .kbd 0x0F#8 1#16) = .ok (.kWrReserved 7#3 1#16)
      ∧ decode (.strobe .tda .frame 3#2) = .ok .tFrameSwap := by
  decide

theorem witness_CommandMaps :
    0x0004 ≤ (0x0004#16).toNat ∧ 0x0004 ≤ (0xFFFF#16).toNat ∧ 0x0003 ≤ (0x0003#16).toNat := by
  decide

/-- Every line of a port at once. -/
def allLines : PortLines :=
  { busEn := true
    busSlot := 7#3
    intSet := true
    irqRead := true
    iack := true
    syncRead := true
    snapGet := true
    snapSet := some fiveRegs
    frameReq := true
    frameSwap := true }

theorem witness_SampledStrobesActInOrder :
    fiveRegs.wellFormed = true ∧ (allLines.snapSet = none ∨ allLines.snapSet = some fiveRegs)
      ∧ (withInput base (.sample .kbd allLines)).inputs = [.sample .kbd allLines]
      ∧ decode (.bus .kbd (allLines.busSlot.setWidth 8) 0#16) = .ok (.kRdReserved 7#3)
      ∧ decode (.bus .kbd (8#8 + allLines.busSlot.setWidth 8) allLines.busWdata) = .ok (.kWrReserved 7#3 0#16)
      ∧ (withInput base (.sample .tda allLines)).inputs = [.sample .tda allLines]
      ∧ decode (.bus .tda (allLines.busSlot.setWidth 8) 0#16) = .ok (.tRdReserved 7#3)
      ∧ decode (.bus .tda (8#8 + allLines.busSlot.setWidth 8) allLines.busWdata) = .ok (.tWrReserved 7#3 0#16)
      ∧ ({ rst := true } : PortLines).rst = true ∧ allLines.rst = false ∧ allLines.frameReq = true
      ∧ (∃ t u, runInstrs [.tGet, .tRdReserved 7#3, .tPoll, .tIsSync, .tSet fiveRegs, .tIack, .tRaise] p5 = .next t
        ∧ exec .tFrameSwap t = .next u)
      ∧ ∃ t, runInstrs [.tGet, .tRdReserved 7#3, .tPoll, .tIsSync, .tSet fiveRegs, .tIack, .tRaise] base = .next t
        ∧ exec .tFrameSwap t = .refused .bufferUnmapped :=
  ⟨by decide, .inr rfl, rfl, by decide, by decide, rfl, by decide, by decide, rfl, rfl, rfl, ⟨_, _, rfl, rfl⟩, _, rfl, rfl⟩

theorem witness_BusAddressSelectsItsSlot :
    (withInput base (.busAccess 0x102 true 7#16)).inputs = [.busAccess 0x102 true 7#16]
      ∧ (slotAddress base.params.regMap .kbd 1#3 = 0x102
        ∧ ∀ d' slot', slotAddress base.params.regMap d' slot' = 0x102 → d' = .kbd ∧ slot' = 1#3)
      ∧ (∀ d slot, slotAddress base.params.regMap d slot ≠ 0x101)
      ∧ (Device.tda, 6#3) ≠ (Device.tda, 7#3) ∧ slotAddress base.params.regMap .tda 6#3 = 0x20C
      ∧ slotAddress base.params.regMap .tda 7#3 = 0x20C := by
  refine ⟨rfl, ⟨rfl, fun d' => ?_⟩, fun d => ?_, by decide, rfl, rfl⟩
  · cases d' <;> decide
  · cases d <;> decide

theorem witness_ReservedSlotsAreInert : (6#3 = 6#3 ∨ 6#3 = 7#3) ∧ (7#3 = 6#3 ∨ 7#3 = 7#3) := by decide

theorem witness_PullKeyTakesTheOldest :
    (kbd 0#16 0#16 0#16 [2#32, 1#32] false 0#16).k.q = [2#32] ++ [1#32]
      ∧ (kbd 0#16 0#16 0#16 [1#32] false 0#16).k.q = [] ++ [1#32] ∧ base.k.q = [] := by
  decide

theorem witness_PushKeyAddsAtTheFront :
    (kbd 0#16 0#16 0#16 [3#32, 2#32, 1#32] false 0#16).k.q.length < base.params.bsize
      ∧ base.params.bsize ≤ (kbd 0#16 0#16 0#16 [4#32, 3#32, 2#32, 1#32] false 0#16).k.q.length := by
  decide

theorem witness_UnrecognizedCommandsAreNoOps : 0x0004 ≤ (0x0004#16).toNat ∧ 0x0003 ≤ (0x0003#16).toNat := by decide

theorem witness_PackAndUnpackAgree : pack 0xFF41#16 0x001E#16 0xFFFA#16 = pack 0x0041#16 0x001E#16 0x0002#16 := by decide

/-- As many events as the test queue holds. -/
def fourEvents : List (Word × Word × Word) :=
  [(1#16, 2#16, 3#16), (4#16, 5#16, 6#16), (7#16, 8#16, 1#16), (9#16, 10#16, 0#16)]

theorem witness_KeyQueueIsFifo :
    base.k.q = [] ∧ fourEvents.length ≤ base.params.bsize
      ∧ fourEvents = [] ++ (1#16, 2#16, 3#16) :: fourEvents.drop 1
      ∧ fourEvents = fourEvents.take 3 ++ (9#16, 10#16, 0#16) :: [] := by
  decide

theorem witness_OverflowKeepsTheFirstEvents : base.k.q = [] := rfl

theorem witness_MapBufferCommitsIffItFits :
    (0x1F6A0#32).toNat = 2 ^ 16 * (1#16).toNat + (0xF6A0#16).toNat ∧ (0x1F6A0#32).toNat + 2400 ≤ base.params.ramSize
      ∧ base.params.ramSize < (0x1F6A1#32).toNat + 2400 := by
  decide

theorem witness_MapFontCommitsIffItFits :
    (0x1F800#32).toNat + 2048 ≤ base.params.ramSize
      ∧ (base.params.romBase ≤ (0x107800#32).toNat
          ∧ (0x107800#32).toNat - base.params.romBase + 2048 ≤ base.params.romSize)
      ∧ (base.params.ramSize < (0x1F801#32).toNat + 2048 ∧ (0x1F801#32).toNat < base.params.romBase)
      ∧ (base.params.ramSize < (0x107801#32).toNat + 2048
          ∧ base.params.romSize < (0x107801#32).toNat - base.params.romBase + 2048) := by
  decide

/-- The test TDA with these two pointers. -/
def mapped (buffer font : Pointer) : State :=
  tda 0#16 0#16 0#16 0#16 buffer font 0#4

theorem witness_FrameRefusedWithUnusablePointers :
    (mapped 0#32 0#32).t.bufferPtr = 0#32
      ∧ ((mapped 0x1F6A1#32 0#32).t.bufferPtr ≠ 0#32
          ∧ base.params.ramSize < (mapped 0x1F6A1#32 0#32).t.bufferPtr.toNat + 2400)
      ∧ ((mapped 0x1F6A0#32 0x1F801#32).t.bufferPtr ≠ 0#32
          ∧ (mapped 0x1F6A0#32 0x1F801#32).t.bufferPtr.toNat + 2400 ≤ base.params.ramSize
          ∧ (mapped 0x1F6A0#32 0x1F801#32).t.fontPtr ≠ 0#32
          ∧ base.params.ramSize < (mapped 0x1F6A0#32 0x1F801#32).t.fontPtr.toNat + 2048
          ∧ ((mapped 0x1F6A0#32 0x1F801#32).t.fontPtr.toNat < base.params.romBase
            ∨ base.params.romSize < (mapped 0x1F6A0#32 0x1F801#32).t.fontPtr.toNat - base.params.romBase + 2048)) := by
  decide

theorem witness_FrameCompletesWithUsablePointers :
    capture (mapped 0#32 0#32) = .error .bufferUnmapped ∧ (mapped 0x1F6A0#32 0#32).t.bufferPtr ≠ 0#32 ∧ (mapped 0x1F6A0#32 0#32).t.bufferPtr.toNat + 2400 ≤ base.params.ramSize
      ∧ (mapped 0x1F6A0#32 0#32).t.fontPtr = 0#32
      ∧ (mapped 0x1F6A0#32 0x1F800#32).t.fontPtr.toNat + 2048 ≤ base.params.ramSize
      ∧ (base.params.romBase ≤ (mapped 0x1F6A0#32 0x107800#32).t.fontPtr.toNat
          ∧ (mapped 0x1F6A0#32 0x107800#32).t.fontPtr.toNat - base.params.romBase + 2048 ≤ base.params.romSize) :=
  ⟨rfl, by decide⟩

/-- A capture that finds its buffer and its font is not refused. -/
theorem capture_ok {s : State} {src : FontSource} (h1 : s.t.bufferPtr ≠ 0#32)
    (h2 : fitsRam s.params s.t.bufferPtr textBufferSize = true) (h3 : fontSource s.params s.t.fontPtr = some src) :
    ∃ scr, capture s = .ok scr :=
  ⟨captureScreen s src, by simp [capture, h1, h2, h3]⟩

/-- A capture with each of the three fonts. -/
theorem witness_CaptureReadsTextFontAndCursor :
    ((∃ scr, capture (mapped 0x1F6A0#32 0#32) = .ok scr) ∧ (mapped 0x1F6A0#32 0#32).t.fontPtr = 0#32)
      ∧ ((∃ scr, capture (mapped 0x1F6A0#32 0x1F800#32) = .ok scr) ∧ (mapped 0x1F6A0#32 0x1F800#32).t.fontPtr ≠ 0#32
        ∧ (mapped 0x1F6A0#32 0x1F800#32).t.fontPtr.toNat + 2048 ≤ base.params.ramSize)
      ∧ (∃ scr, capture (mapped 0x1F6A0#32 0x107800#32) = .ok scr) ∧ (mapped 0x1F6A0#32 0x107800#32).t.fontPtr ≠ 0#32
        ∧ base.params.ramSize < (mapped 0x1F6A0#32 0x107800#32).t.fontPtr.toNat + 2048 := by
  refine ⟨⟨capture_ok (src := .builtIn) ?_ ?_ ?_, ?_⟩, ⟨capture_ok (src := .ram 0x1F800) ?_ ?_ ?_, ?_, ?_⟩,
    capture_ok (src := .rom 0x7800) ?_ ?_ ?_, ?_, ?_⟩ <;> decide

theorem witness_RenderDrawsCellsAndCursor :
    (29 < 30 ∧ 39 < 40 ∧ 7 < 8) ∧ (∃ scr, capture (mapped 0x1F6A0#32 0#32) = .ok scr)
      ∧ ∃ t, exec .tFrame (mapped 0x1F6A0#32 0#32) = .next t :=
  ⟨by decide, capture_ok (src := .builtIn) (by decide) (by decide) (by decide), ⟨_, rfl⟩⟩

theorem witness_SwappedFrameExchangesRedAndBlue :
    ∃ t t', exec .tFrame (screen 0#16 0x0FEE#16 0#4) = .next t ∧ exec .tFrameSwap (screen 0#16 0x0FEE#16 0#4) = .next t' :=
  ⟨_, _, rfl, rfl⟩

theorem witness_BlinkCounterCountsFrames :
    FrameUsable (mapped 0x1F6A0#32 0x107800#32) ∧ ∀ i ∈ [Instr.tFrame, .tFrameSwap], i = .tFrame ∨ i = .tFrameSwap :=
  ⟨⟨by decide, by decide, .inr (by decide)⟩, by decide⟩

/-- A second state that differs from `p5` in RAM next to both windows, in a register and in the keyboard. -/
def p5' : State :=
  { p5 with
    ram := (p5.ram.write 0x10FFF 1#8).write 0x11960 1#8
    t := { p5.t with a := 7#16 }
    k := { p5.k with a := 7#16 } }

theorem witness_FrameSeesOnlyItsWindows :
    p5'.params = p5.params ∧ (∀ a : Nat, p5'.readRom a = p5.readRom a) ∧ p5'.t.bufferPtr = p5.t.bufferPtr
      ∧ p5'.t.fontPtr = p5.t.fontPtr ∧ p5'.t.cursor = p5.t.cursor ∧ p5'.t.blink = p5.t.blink ∧ p5'.t.d = p5.t.d
      ∧ p5'.t.e = p5.t.e ∧ p5'.t.blinkCtr = p5.t.blinkCtr
      ∧ (∀ a : Nat, p5.t.bufferPtr.toNat ≤ a → a < p5.t.bufferPtr.toNat + 2400 → p5'.readRam a = p5.readRam a)
      ∧ (p5.t.fontPtr ≠ 0#32 → p5.t.fontPtr.toNat + 2048 ≤ p5.params.ramSize →
        ∀ a : Nat, p5.t.fontPtr.toNat ≤ a → a < p5.t.fontPtr.toNat + 2048 → p5'.readRam a = p5.readRam a)
      ∧ ∃ t, exec .tFrame p5 = .next t := by
  have h0 : p5.ram.wf := by decide
  have h : ∀ a : Nat, p5'.readRam a = if a = 0x11960 then 1#8 else if a = 0x10FFF then 1#8 else p5.readRam a := fun a =>
    (Memory.read_write (Memory.write_wf h0 0x10FFF 1#8) 0x11960 1#8 a).trans
      (congrArg (fun v => if a = 0x11960 then 1#8 else v) (Memory.read_write h0 0x10FFF 1#8 a))
  refine ⟨rfl, fun _ => rfl, rfl, rfl, rfl, rfl, rfl, rfl, rfl, ?_, ?_, ⟨_, rfl⟩⟩
  · intro a h1 h2
    rw [show p5.t.bufferPtr.toNat = 0x11000 from rfl] at h1 h2
    rw [h, if_neg (by omega), if_neg (by omega)]
  · intro _ _ a h1 h2
    rw [show p5.t.fontPtr.toNat = 0x1F800 from rfl] at h1 h2
    rw [h, if_neg (by omega), if_neg (by omega)]

theorem witness_SetStateFailsExactlyWhenShort : [1#16, 2#16, 3#16, 4#16].length < 5 ∧ 5 ≤ fiveRegs.regs.length := by decide

/-- A keyboard snapshot with every property at its type. -/
def kbdSnap : Snapshot :=
  zeros [("queue", .raw (List.replicate 23 7#8)), ("msg", .int 0x1FFFF), ("pending", .bool true)]

/-- A TDA snapshot with every property at its type. -/
def tdaSnap : Snapshot :=
  zeros [("msg", .int 0x1FFFF), ("pending", .bool true), ("cursor", .bool true), ("blink", .bool true),
    ("buffer_ptr", .int 0x1FFFFFFFF), ("font_ptr", .int 0x1F801)]

/-- Every property present, and every one absent or of another type. -/
theorem witness_KbdSetStateRestoresByName :
    kbdSnap.wellFormed = true ∧ 5 ≤ kbdSnap.regs.length ∧ (base.params.kbdProps.msg, .int 0x1FFFF) ∈ kbdSnap.props
      ∧ (base.params.kbdProps.pending, .bool true) ∈ kbdSnap.props
      ∧ (base.params.kbdProps.queue, .raw (List.replicate 23 7#8)) ∈ kbdSnap.props
      ∧ (zeros [("msg", .bool true)]).wellFormed = true
      ∧ (∀ v : Nat, (base.params.kbdProps.msg, .int v) ∉ (zeros [("msg", .bool true)]).props)
      ∧ (∀ f : Bool, (base.params.kbdProps.pending, .bool f) ∉ (zeros [("msg", .bool true)]).props)
      ∧ (∀ bytes : List Byte, (base.params.kbdProps.queue, .raw bytes) ∉ (zeros [("msg", .bool true)]).props) := by
  refine ⟨by decide, by decide, by decide, by decide, by decide, by decide, fun v => ?_, fun f => ?_, fun bytes => ?_⟩ <;>
    simp [zeros, base, params]

/-- Every property present, and every one absent. -/
theorem witness_TdaSetStateRestoresByName :
    tdaSnap.wellFormed = true ∧ 5 ≤ tdaSnap.regs.length ∧ (base.params.tdaProps.msg, .int 0x1FFFF) ∈ tdaSnap.props
      ∧ (base.params.tdaProps.pending, .bool true) ∈ tdaSnap.props
      ∧ (base.params.tdaProps.cursor, .bool true) ∈ tdaSnap.props
      ∧ (base.params.tdaProps.blink, .bool true) ∈ tdaSnap.props
      ∧ (base.params.tdaProps.bufferPtr, .int 0x1FFFFFFFF) ∈ tdaSnap.props
      ∧ (base.params.tdaProps.fontPtr, .int 0x1F801) ∈ tdaSnap.props
      ∧ (∀ n v, (n, .int v) ∉ (zeros []).props) ∧ (∀ n f, (n, .bool f) ∉ (zeros []).props) := by
  refine ⟨by decide, by decide, by decide, by decide, by decide, by decide, by decide, by decide, fun n v => ?_,
    fun n f => ?_⟩ <;>
    simp [zeros]

theorem witness_SnapshotRoundTrips :
    (kbd 1#16 2#16 3#16 [4#32, 3#32, 2#32, 1#32] true 9#16).k.q.length
        ≤ (kbd 1#16 2#16 3#16 [4#32, 3#32, 2#32, 1#32] true 9#16).params.bsize
      ∧ (kbd 1#16 2#16 3#16 [4#32, 3#32, 2#32, 1#32] true 9#16).params.wf := by
  decide

theorem witness_PropertyOrderIsIrrelevant :
    kbdSnap.wellFormed = true ∧ (zeros kbdSnap.props.reverse).regs = kbdSnap.regs
      ∧ List.Perm kbdSnap.props (zeros kbdSnap.props.reverse).props :=
  ⟨by decide, rfl, (List.reverse_perm _).symm⟩

theorem witness_DoesInterruptReportsTheLatch :
    ((kbd 0#16 0#16 0#16 [] true 9#16).k.latch.pending = true ∧ (kbd 0#16 0#16 0#16 [] true 9#16).k.latch.msg ≠ 0#16)
      ∧ ¬ ((kbd 0#16 0#16 0#16 [] true 0#16).k.latch.pending = true
          ∧ (kbd 0#16 0#16 0#16 [] true 0#16).k.latch.msg ≠ 0#16)
      ∧ ((tdaLatch 0#16 true 9#16).t.latch.pending = true ∧ (tdaLatch 0#16 true 9#16).t.latch.msg ≠ 0#16)
      ∧ ¬ ((tdaLatch 0#16 false 9#16).t.latch.pending = true ∧ (tdaLatch 0#16 false 9#16).t.latch.msg ≠ 0#16) := by
  decide

theorem witness_OnlySetIntResetSetWriteMessages :
    (∃ t, exec .kSetInt (kbd 9#16 0#16 0#16 [] false 0#16) = .next t ∧ t.k.latch.msg ≠ 0#16)
      ∧ (∃ t, exec .tSetInt (tdaLatch 9#16 false 0#16) = .next t ∧ t.t.latch.msg ≠ 0#16)
      ∧ (∃ t, exec .kReset base = .next t) ∧ (∃ t, exec .tReset base = .next t) ∧ (∃ t, exec .kIack base = .next t)
      ∧ ∃ t, exec .tIack base = .next t :=
  ⟨⟨_, rfl, by decide⟩, ⟨_, rfl, by decide⟩, ⟨_, rfl⟩, ⟨_, rfl⟩, ⟨_, rfl⟩, ⟨_, rfl⟩⟩

theorem witness_RaiseSetsPending :
    (base.k.latch.pending = false ∧ ∃ t, exec .kRaise base = .next t ∧ t.k.latch.pending = true)
      ∧ base.t.latch.pending = false ∧ ∃ t, exec .tRaise base = .next t ∧ t.t.latch.pending = true :=
  ⟨⟨rfl, ⟨_, rfl, rfl⟩⟩, rfl, ⟨_, rfl, rfl⟩⟩

theorem witness_IackClearsPending :
    ((kbd 0#16 0#16 0#16 [] true 9#16).k.latch.pending = true
        ∧ ∃ t, exec .kIack (kbd 0#16 0#16 0#16 [] true 9#16) = .next t ∧ t.k.latch.pending = false)
      ∧ (tdaLatch 0#16 true 9#16).t.latch.pending = true
      ∧ ∃ t, exec .tIack (tdaLatch 0#16 true 9#16) = .next t ∧ t.t.latch.pending = false :=
  ⟨⟨rfl, ⟨_, rfl, rfl⟩⟩, rfl, ⟨_, rfl, rfl⟩⟩

theorem witness_MaskedUntilSetInt :
    (∃ t, runInstrs [.kRaise, .tRaise, .kWrCmd 2#16] base = .next t) ∧ base.k.latch.msg = 0#16 ∧ base.t.latch.msg = 0#16
      ∧ (∀ i ∈ [Instr.kRaise, .tRaise, .kWrCmd 2#16], i ≠ .kSetInt ∧ i ≠ .kWrCmd 3#16 ∧ ∀ snap, i ≠ .kSet snap)
      ∧ ∀ i ∈ [Instr.kRaise, .tRaise, .kWrCmd 2#16], i ≠ .tSetInt ∧ i ≠ .tWrCmd 2#16 ∧ ∀ snap, i ≠ .tSet snap :=
  ⟨⟨_, rfl⟩, rfl, rfl, by simp, by simp⟩

theorem witness_EveryOperationIsTotal : Instr.kPushKey ≠ .tFrame ∧ Instr.kPushKey ≠ .tFrameSwap := by decide

theorem witness_DevicesShareNothing :
    ((∃ t, exec .kPushKey base = .next t) ∧ Instr.kPushKey.device = .kbd)
      ∧ (∃ t, exec .tFrame p5 = .next t) ∧ Instr.tFrame.device = .tda :=
  ⟨⟨⟨_, rfl⟩, rfl⟩, ⟨_, rfl⟩, rfl⟩

theorem witness_MemoryIsReadOnlyAndOnlyByFrames :
    (∃ t, exec .tMapFont p5 = .next t) ∧ Instr.tMapFont ≠ .tFrame ∧ Instr.tMapFont ≠ .tFrameSwap :=
  ⟨⟨_, rfl⟩, by decide, by decide⟩

theorem witness_KeyboardStateHasItsWriters :
    (∃ t, exec (.kWrCmd 2#16) base = .next t ∧ t.k.q ≠ base.k.q) ∧ ∃ t, exec (.kWrC 1#16) base = .next t ∧ t.k.c ≠ base.k.c :=
  ⟨⟨_, rfl, by decide⟩, ⟨_, rfl, by decide⟩⟩

theorem witness_TdaStateHasItsWriters :
    (∃ t, exec .tMapBuffer (tda 1#16 0#16 0#16 0#16 0#32 0#32 0#4) = .next t ∧ t.t.bufferPtr ≠ 0#32)
      ∧ (∃ t, exec .tMapFont (tda 1#16 0#16 0#16 0#16 0#32 0#32 0#4) = .next t ∧ t.t.fontPtr ≠ 0#32)
      ∧ (∃ t, exec (.tWrE 0x80#16) base = .next t ∧ t.t.blink ≠ base.t.blink)
      ∧ (∃ t, exec (.tWrD 1#16) base = .next t ∧ t.t.d ≠ base.t.d)
      ∧ ∃ t, exec .tFrame p5 = .next t ∧ t.t.blinkCtr ≠ p5.t.blinkCtr :=
  ⟨⟨_, rfl, by decide⟩, ⟨_, rfl, by decide⟩, ⟨_, rfl, by decide⟩, ⟨_, rfl, by decide⟩, ⟨_, rfl, by decide⟩⟩

theorem witness_StepKeepsTheInvariant :
    Machine.Inv (withInput p5 (.cpuWrite 0x1FFFF 1#8)) ∧ ∃ t, step (withInput p5 (.cpuWrite 0x1FFFF 1#8)) = .next t :=
  ⟨⟨by decide, by decide, by decide, by decide, by decide, by decide⟩, ⟨_, rfl⟩⟩

theorem witness_WithoutSetStateTheDevicesStayCoherent :
    (∃ t, runInstrs [.kPushKey, .tMapFont] p5 = .next t) ∧ (∀ i ∈ [Instr.kPushKey, .tMapFont], ∀ snap, i ≠ .kSet snap)
      ∧ (∀ i ∈ [Instr.kPushKey, .tMapFont], ∀ snap, i ≠ .tSet snap) ∧ EventsPacked p5 ∧ TdaCoherent p5 := by
  refine ⟨⟨_, rfl⟩, by simp, by simp, ?_, ?_⟩
  · intro ev h
    exact absurd h List.not_mem_nil
  · exact ⟨.inr (by decide), .inr (by decide), by decide, by decide⟩

theorem witness_CpuWriteChangesOneByte :
    (withInput p5 (.cpuWrite 0x1FFFF 1#8)).inputs = .cpuWrite 0x1FFFF 1#8 :: []
      ∧ (withInput p5 (.cpuWrite 0x1FFFF 1#8)).ram.wf ∧ 0x1FFFF < base.params.ramSize ∧ base.params.ramSize ≤ 0x20000 :=
  ⟨rfl, by decide, by decide, by decide⟩

theorem witness_OnlyCpuWritesCanFault :
    ∀ (a : Nat) (v : Byte) (rest : List Input),
      (withInput p5 (.cpuWrite 0x1FFFF 1#8)).inputs = .cpuWrite a v :: rest → a < p5.params.ramSize := by
  intro a v rest h
  simp only [withInput, List.cons.injEq, Input.cpuWrite.injEq] at h
  rw [← h.1.1]
  decide

end Sys2Proof.Tests
end

section
/-! What a request decodes to (R60 to R68): a well-formed operation of the device the request names. -/

namespace Sys2Proof

/-- The device a request is presented to (R60, R64, R68). -/
def Request.device : Request → Device
  | .cmd d _ | .bus d _ _ | .strobe d _ _ => d

theorem decodeKbdCommand_wellFormed (code : Word) :
    (decodeKbdCommand code).wellFormed = true ∧ (decodeKbdCommand code).device = .kbd := by
  by_cases h : 4 ≤ code.toNat
  · rw [Laws.decodeKbdCommand_of_ge h]
    exact ⟨decide_eq_true h, rfl⟩
  · have hcommand : code.toNat = 0 ∨ code.toNat = 1 ∨ code.toNat = 2 ∨ code.toNat = 3 := by omega
    rcases hcommand with h | h | h | h <;> simp [decodeKbdCommand, h, Instr.wellFormed, Instr.device]

theorem decodeTdaCommand_wellFormed (code : Word) :
    (decodeTdaCommand code).wellFormed = true ∧ (decodeTdaCommand code).device = .tda := by
  by_cases h : 3 ≤ code.toNat
  · rw [Laws.decodeTdaCommand_of_ge h]
    exact ⟨decide_eq_true h, rfl⟩
  · have hcommand : code.toNat = 0 ∨ code.toNat = 1 ∨ code.toNat = 2 := by omega
    rcases hcommand with h | h | h <;> simp [decodeTdaCommand, h, Instr.wellFormed, Instr.device]

/-- Of the patterns `{we, slot}`, only those of slots 6 and 7 carry an operand that could be ill formed (R64). -/
theorem decodeKbdBus_wellFormed {pattern : Byte} {wdata : Word} {i : Instr} (h : decodeKbdBus pattern wdata = .ok i) :
    i.wellFormed = true ∧ i.device = .kbd := by
  unfold decodeKbdBus at h
  split at h <;> cases h <;> exact ⟨rfl, rfl⟩

theorem decodeTdaBus_wellFormed {pattern : Byte} {wdata : Word} {i : Instr} (h : decodeTdaBus pattern wdata = .ok i) :
    i.wellFormed = true ∧ i.device = .tda := by
  unfold decodeTdaBus at h
  split at h <;> cases h <;> exact ⟨rfl, rfl⟩

theorem whenActive_eq_ok {pattern : BitVec 2} {i j : Instr} :
    whenActive pattern i = .ok j ↔ pattern = 1#2 ∧ i = j := by
  unfold whenActive
  split <;> simp_all

theorem checkSnapshot_eq_ok {snap : Snapshot} {r : Except DecodeError Instr} {i : Instr} :
    checkSnapshot snap r = .ok i ↔ snap.wellFormed = true ∧ r = .ok i := by
  unfold checkSnapshot
  split <;> simp_all

/-- The check of the snapshot (R27) is what makes a decoded `SET` well formed. -/
theorem decodeKbdStrobe_wellFormed {line : Strobe} {pattern : BitVec 2} {i : Instr}
    (h : decodeKbdStrobe line pattern = .ok i) : i.wellFormed = true ∧ i.device = .kbd := by
  cases line with
  | snapSet snap =>
    obtain ⟨hsnap, hactive⟩ := checkSnapshot_eq_ok.1 h
    obtain ⟨-, rfl⟩ := whenActive_eq_ok.1 hactive
    exact ⟨hsnap, rfl⟩
  | frame => cases h
  | rst | intSet | irq | iack | syncDev | snapGet =>
    obtain ⟨-, rfl⟩ := whenActive_eq_ok.1 h
    exact ⟨rfl, rfl⟩

theorem decodeTdaStrobe_wellFormed {line : Strobe} {pattern : BitVec 2} {i : Instr}
    (h : decodeTdaStrobe line pattern = .ok i) : i.wellFormed = true ∧ i.device = .tda := by
  cases line with
  | snapSet snap =>
    obtain ⟨hsnap, hactive⟩ := checkSnapshot_eq_ok.1 h
    obtain ⟨-, rfl⟩ := whenActive_eq_ok.1 hactive
    exact ⟨hsnap, rfl⟩
  | frame =>
    simp only [decodeTdaStrobe] at h
    split at h <;> cases h <;> exact ⟨rfl, rfl⟩
  | rst | intSet | irq | iack | syncDev | snapGet =>
    obtain ⟨-, rfl⟩ := whenActive_eq_ok.1 h
    exact ⟨rfl, rfl⟩

/-- What decodes is an operation of the spec on the device the request names (R60). -/
theorem decode_wellFormed {r : Request} {i : Instr} (h : decode r = .ok i) :
    i.wellFormed = true ∧ i.device = r.device := by
  match r, h with
  | .cmd .kbd code, h => cases h; exact decodeKbdCommand_wellFormed code
  | .cmd .tda code, h => cases h; exact decodeTdaCommand_wellFormed code
  | .bus .kbd _ _, h => exact decodeKbdBus_wellFormed h
  | .bus .tda _ _, h => exact decodeTdaBus_wellFormed h
  | .strobe .kbd _ _, h => exact decodeKbdStrobe_wellFormed h
  | .strobe .tda _ _, h => exact decodeTdaStrobe_wellFormed h

end Sys2Proof
end

section
/-! What an operation can do (R4, R5): it replaces the state and the results of its own device, and of the operations
only the two frames can be refused. -/

namespace Sys2Proof.Machine

/-- Everything `SET` on the keyboard can do (R133, R134, R136). -/
theorem execKSet_cases (snap : Snapshot) (s : State) :
    (s.k.restore s.params snap = none
        ∧ execKSet snap s = .next (s.setKOut { s.kOut with snapOk := some false }))
      ∨ ∃ k, s.k.restore s.params snap = some k
        ∧ execKSet snap s = .next ((s.setKbd k).setKOut { s.kOut with snapOk := some true }) := by
  cases h : s.k.restore s.params snap with
  | none => exact .inl ⟨rfl, by simp only [execKSet, h]⟩
  | some k => exact .inr ⟨k, rfl, by simp only [execKSet, h]⟩

/-- Everything `SET` on the TDA can do (R133, R135, R136). -/
theorem execTSet_cases (snap : Snapshot) (s : State) :
    (s.t.restore s.params snap = none
        ∧ execTSet snap s = .next (s.setTOut { s.tOut with snapOk := some false }))
      ∨ ∃ t, s.t.restore s.params snap = some t
        ∧ execTSet snap s = .next ((s.setTda t).setTOut { s.tOut with snapOk := some true }) := by
  cases h : s.t.restore s.params snap with
  | none => exact .inl ⟨rfl, by simp only [execTSet, h]⟩
  | some t => exact .inr ⟨t, rfl, by simp only [execTSet, h]⟩

/-- Everything `FRAME` can do: it is refused where `Capture` is (R111, R122). -/
theorem execTFrame_cases (s : State) :
    (∃ why, capture s = .error why ∧ execTFrame s = .refused why)
      ∨ ∃ scr, capture s = .ok scr
        ∧ execTFrame s = .next ((s.setTda s.t.rendered).setTOut
            { s.tOut with frame := some (renderPixels s.params scr s.t.blinkCtr) }) := by
  cases h : capture s with
  | error why => exact .inl ⟨why, rfl, by simp only [execTFrame, h]⟩
  | ok scr => exact .inr ⟨scr, rfl, by simp only [execTFrame, h]⟩

/-- Everything `FRAME.SWAP` can do: it is refused where `Capture` is (R111, R122). -/
theorem execTFrameSwap_cases (s : State) :
    (∃ why, capture s = .error why ∧ execTFrameSwap s = .refused why)
      ∨ ∃ scr, capture s = .ok scr
        ∧ execTFrameSwap s = .next ((s.setTda s.t.rendered).setTOut
            { s.tOut with frame := some (renderSwappedPixels s.params scr s.t.blinkCtr) }) := by
  cases h : capture s with
  | error why => exact .inl ⟨why, rfl, by simp only [execTFrameSwap, h]⟩
  | ok scr => exact .inr ⟨scr, rfl, by simp only [execTFrameSwap, h]⟩

/-- An operation on the keyboard completes, and replaces no more than the keyboard and its results. -/
theorem exec_of_kbd {i : Instr} (hdev : i.device = .kbd) (s : State) :
    ∃ k o, exec i s = .next { s with k := k, kOut := o } := by
  cases i with
  | kSet snap =>
    rcases execKSet_cases snap s with ⟨-, h⟩ | ⟨k, -, h⟩
    · exact ⟨s.k, _, h⟩
    · exact ⟨k, _, h⟩
  | kClrBuffer | kPullKey | kPushKey | kSetInt | kWrCmd | kWrA | kWrB | kWrC | kReset | kRaise | kIack =>
    exact ⟨_, s.kOut, rfl⟩
  | kRdCmd | kRdA | kRdB | kRdC | kRdD | kRdE | kRdReserved | kPoll | kIsSync | kGet => exact ⟨s.k, _, rfl⟩
  | kUnrecognized | kWrD | kWrE | kWrReserved => exact ⟨s.k, s.kOut, rfl⟩
  | _ => cases hdev

/-- An operation on the TDA completes, and replaces no more than the TDA and its results, or it is a frame whose
`Capture` is refused. -/
theorem exec_of_tda {i : Instr} (hdev : i.device = .tda) (s : State) :
    (∃ t o, exec i s = .next { s with t := t, tOut := o })
      ∨ (i = .tFrame ∨ i = .tFrameSwap) ∧ ∃ why, capture s = .error why ∧ exec i s = .refused why := by
  cases i with
  | tSet snap =>
    rcases execTSet_cases snap s with ⟨-, h⟩ | ⟨t, -, h⟩
    · exact .inl ⟨s.t, _, h⟩
    · exact .inl ⟨t, _, h⟩
  | tFrame =>
    rcases execTFrame_cases s with hrefused | ⟨scr, -, h⟩
    · exact .inr ⟨.inl rfl, hrefused⟩
    · exact .inl ⟨_, _, h⟩
  | tFrameSwap =>
    rcases execTFrameSwap_cases s with hrefused | ⟨scr, -, h⟩
    · exact .inr ⟨.inr rfl, hrefused⟩
    · exact .inl ⟨_, _, h⟩
  | tMapBuffer | tMapFont | tSetInt | tWrCmd | tWrA | tWrB | tWrD | tWrE | tReset | tRaise | tIack =>
    exact .inl ⟨_, s.tOut, rfl⟩
  | tRdCmd | tRdA | tRdB | tRdC | tRdD | tRdE | tRdReserved | tPoll | tIsSync | tGet => exact .inl ⟨s.t, _, rfl⟩
  | tUnrecognized | tWrC | tWrReserved => exact .inl ⟨s.t, s.tOut, rfl⟩
  | _ => cases hdev

/-- Settles O48: the two devices' operations complete, but for a refused frame, and a refusal is no fault. -/
theorem everyOperationIsTotal : Obligations.EveryOperationIsTotal := by
  intro i s
  cases hdev : i.device with
  | kbd =>
    obtain ⟨k, o, h⟩ := exec_of_kbd hdev s
    simp [h]
  | tda =>
    rcases exec_of_tda hdev s with ⟨t, o, h⟩ | ⟨hframe, why, -, h⟩
    · simp [h]
    · refine ⟨by simp [h], fun hnot hnotSwap => ?_⟩
      exact absurd hframe (not_or.2 ⟨hnot, hnotSwap⟩)

/-- Settles O49: what an operation replaces belongs to its own device. -/
theorem devicesShareNothing : Obligations.DevicesShareNothing := by
  intro i s s' hnext
  constructor
  · intro hdev
    obtain ⟨k, o, h⟩ := exec_of_kbd hdev s
    cases h.symm.trans hnext
    exact ⟨rfl, rfl⟩
  · intro hdev
    rcases exec_of_tda hdev s with ⟨t, o, h⟩ | ⟨-, why, -, h⟩
    · cases h.symm.trans hnext
      exact ⟨rfl, rfl⟩
    · cases h.symm.trans hnext

end Sys2Proof.Machine
end

section
/-! One step of the schedule (R4; log 1), and one access at a bus address (R3, R54; log 15). -/

namespace Sys2Proof.Machine

theorem step_of_inputs {s : State} {input : Input} {rest : List Input} (h : s.inputs = input :: rest) :
    step s = runInput input (s.setInputs rest) := by
  simp only [step, h]

theorem runRequest_of_decode {r : Request} {i : Instr} (h : decode r = .ok i) (s : State) :
    runRequest r s = exec i s := by
  simp only [runRequest, h]

/-- An access at the address of one slot alone is the transaction on that slot (R54, R64). -/
theorem runBusAccess_of_unique {s : State} {addr : Nat} {d : Device} {slot : BitVec 3}
    (hat : slotAddress s.params.regMap d slot = addr)
    (hunique : ∀ d' slot', slotAddress s.params.regMap d' slot' = addr → d' = d ∧ slot' = slot)
    (we : Bool) (wdata : Word) :
    runBusAccess addr we wdata s = runRequest (busTransaction d slot we wdata) s := by
  rcases runBusAccess_cases addr we wdata s with
    ⟨hnone, -⟩ | ⟨d₁, slot₁, honly, h⟩ | ⟨d₁, slot₁, d₂, slot₂, hne, h₁, h₂, -⟩
  · exact absurd hat (hnone d slot)
  · obtain ⟨rfl, rfl⟩ := (honly d slot).1 hat
    exact h
  · obtain ⟨rfl, rfl⟩ := hunique d₁ slot₁ h₁
    obtain ⟨rfl, rfl⟩ := hunique d₂ slot₂ h₂
    exact absurd rfl hne

/-- An access at an address of no slot starts no operation (R4). -/
theorem runBusAccess_of_none {s : State} {addr : Nat}
    (hnone : ∀ d slot, slotAddress s.params.regMap d slot ≠ addr) (we : Bool) (wdata : Word) :
    runBusAccess addr we wdata s = .next s := by
  rcases runBusAccess_cases addr we wdata s with ⟨-, h⟩ | ⟨d, slot, honly, -⟩ | ⟨d, slot, -, -, -, hat, -, -⟩
  · exact h
  · exact absurd ((honly d slot).2 ⟨rfl, rfl⟩) (hnone d slot)
  · exact absurd hat (hnone d slot)

/-- An access at an address of two slots is refused (log 15). -/
theorem runBusAccess_of_shared {s : State} {addr : Nat} {d d' : Device} {slot slot' : BitVec 3}
    (hne : (d, slot) ≠ (d', slot')) (hat : slotAddress s.params.regMap d slot = addr)
    (hat' : slotAddress s.params.regMap d' slot' = addr) (we : Bool) (wdata : Word) :
    runBusAccess addr we wdata s = .refused (.addressShared addr) := by
  rcases runBusAccess_cases addr we wdata s with ⟨hnone, -⟩ | ⟨d₁, slot₁, honly, -⟩ | ⟨-, -, -, -, -, -, -, h⟩
  · exact absurd hat (hnone d slot)
  · obtain ⟨rfl, rfl⟩ := (honly d slot).1 hat
    obtain ⟨rfl, rfl⟩ := (honly d' slot').1 hat'
    exact absurd rfl hne
  · exact h

/-- Settles O58, clause by clause: one slot at the address, none, two. -/
theorem busAddressSelectsItsSlot : Obligations.BusAddressSelectsItsSlot := by
  intro s addr we wdata rest hinputs
  have hstep : step s = runBusAccess addr we wdata (s.setInputs rest) := step_of_inputs hinputs
  rw [hstep]
  exact ⟨fun _ _ hat hunique => runBusAccess_of_unique (s := s.setInputs rest) hat hunique we wdata,
    fun hnone => runBusAccess_of_none (s := s.setInputs rest) hnone we wdata,
    fun _ _ _ _ hne hat hat' => runBusAccess_of_shared (s := s.setInputs rest) hne hat hat' we wdata⟩

/-- Settles O1: what decodes is well formed, and the step runs it with its move taken off the schedule. -/
theorem stepRunsTheDecodedRequest : Obligations.StepRunsTheDecodedRequest := by
  intro s r rest i hinputs hdecode
  obtain ⟨hwf, -⟩ := decode_wellFormed hdecode
  refine ⟨hwf, ?_⟩
  calc step s = runRequest r (s.setInputs rest) := step_of_inputs hinputs
    _ = exec i (s.setInputs rest) := runRequest_of_decode hdecode _

/-- Settles O2: a step that takes a move needs one scheduled. -/
theorem emptyScheduleIsIdle : Obligations.EmptyScheduleIsIdle := by
  intro s hempty
  rcases step_cases s with ⟨-, h⟩ | ⟨input, rest, hinputs, -⟩
  · exact h
  · cases hempty.symm.trans hinputs

end Sys2Proof.Machine
end

section
/-! What an operation does to each device's state, said once: every way it can be written, with the operations that
write it so (R10 to R19, R90 to R104, R150 to R154, R180, R181). The slot 0 form of a command (R83) stands beside it. -/

namespace Sys2Proof.Machine

/-- How operation `i` takes the keyboard from `k` to another state. -/
inductive KbdEffect (ps : Params) (k : Keyboard) (i : Instr) : Keyboard → Prop where
  | unchanged : KbdEffect ps k i k
  | clear (hi : i = .kClrBuffer ∨ i = .kWrCmd 0x0000#16) : KbdEffect ps k i { k with q := [] }
  | pullEmpty (hi : i = .kPullKey ∨ i = .kWrCmd 0x0001#16) (hq : k.q = []) :
      KbdEffect ps k i { k with a := 0#16, b := 0#16, c := 0#16 }
  | pull {q : List Event} {ev : Event} (hi : i = .kPullKey ∨ i = .kWrCmd 0x0001#16) (hq : k.q = q ++ [ev]) :
      KbdEffect ps k i { k with q := q, a := eventKeycode ev, b := eventScancode ev, c := eventStatus ev }
  | push (hi : i = .kPushKey ∨ i = .kWrCmd 0x0002#16) (hroom : k.q.length < ps.bsize) :
      KbdEffect ps k i { k with q := pack k.a k.b k.c :: k.q }
  | setInt (hi : i = .kSetInt ∨ i = .kWrCmd 0x0003#16) : KbdEffect ps k i { k with latch := k.latch.withMessage k.a }
  | writeA {v : Word} (hi : i = .kWrA v) : KbdEffect ps k i { k with a := v }
  | writeB {v : Word} (hi : i = .kWrB v) : KbdEffect ps k i { k with b := v }
  | writeC {v : Word} (hi : i = .kWrC v) : KbdEffect ps k i { k with c := v }
  | raise (hi : i = .kRaise) : KbdEffect ps k i { k with latch := k.latch.raised }
  | acknowledge (hi : i = .kIack) : KbdEffect ps k i { k with latch := k.latch.acknowledged }
  | reset (hi : i = .kReset) : KbdEffect ps k i Keyboard.cleared
  | restore {snap : Snapshot} {k' : Keyboard} (hi : i = .kSet snap) (hk : k.restore ps snap = some k') :
      KbdEffect ps k i k'

/-- How operation `i` takes the TDA from `t` to another state. -/
inductive TdaEffect (ps : Params) (t : Tda) (i : Instr) : Tda → Prop where
  | unchanged : TdaEffect ps t i t
  | mapBuffer (hi : i = .tMapBuffer ∨ i = .tWrCmd 0x0000#16) (hfits : (candidate t).toNat + 2400 ≤ ps.ramSize) :
      TdaEffect ps t i { t with bufferPtr := candidate t }
  | mapFont (hi : i = .tMapFont ∨ i = .tWrCmd 0x0001#16) (hfits : fontRegion ps (candidate t) ≠ none) :
      TdaEffect ps t i { t with fontPtr := candidate t }
  | setInt (hi : i = .tSetInt ∨ i = .tWrCmd 0x0002#16) : TdaEffect ps t i { t with latch := t.latch.withMessage t.a }
  | writeA {v : Word} (hi : i = .tWrA v) : TdaEffect ps t i { t with a := v }
  | writeB {v : Word} (hi : i = .tWrB v) : TdaEffect ps t i { t with b := v }
  | writeD {v : Word} (hi : i = .tWrD v) : TdaEffect ps t i { t with d := v }
  | writeE {v : Word} (hi : i = .tWrE v) :
      TdaEffect ps t i { t with e := v, cursor := cursorFlag v, blink := blinkFlag v }
  | raise (hi : i = .tRaise) : TdaEffect ps t i { t with latch := t.latch.raised }
  | acknowledge (hi : i = .tIack) : TdaEffect ps t i { t with latch := t.latch.acknowledged }
  | reset (hi : i = .tReset) : TdaEffect ps t i Tda.cleared
  | restore {snap : Snapshot} {t' : Tda} (hi : i = .tSet snap) (ht : t.restore ps snap = some t') :
      TdaEffect ps t i t'
  | frame (hi : i = .tFrame ∨ i = .tFrameSwap) : TdaEffect ps t i { t with blinkCtr := t.blinkCtr + 1#4 }

/-! ## The commands, presented alone or through slot 0 (R83) -/

theorem KbdEffect.of_pullKey (ps : Params) (k : Keyboard) {i : Instr} (hi : i = .kPullKey ∨ i = .kWrCmd 0x0001#16) :
    KbdEffect ps k i k.pullKey := by
  rcases k.pullKey_cases with ⟨hq, h⟩ | ⟨q, ev, hq, h⟩ <;> rw [h]
  · exact .pullEmpty hi hq
  · exact .pull hi hq

theorem KbdEffect.of_pushKey (ps : Params) (k : Keyboard) {i : Instr} (hi : i = .kPushKey ∨ i = .kWrCmd 0x0002#16) :
    KbdEffect ps k i (k.pushKey ps.bsize) := by
  rcases k.pushKey_cases ps.bsize with ⟨hroom, h⟩ | ⟨-, h⟩ <;> rw [h]
  · exact .push hi hroom
  · exact .unchanged

theorem KbdEffect.of_sendCmd (ps : Params) (k : Keyboard) (cmd : Word) :
    KbdEffect ps k (.kWrCmd cmd) (k.sendCmd ps.bsize cmd) := by
  rcases k.sendCmd_cases ps.bsize cmd with ⟨rfl, h⟩ | ⟨rfl, h⟩ | ⟨rfl, h⟩ | ⟨rfl, h⟩ | ⟨-, h⟩ <;> rw [h]
  · exact .clear (.inr rfl)
  · exact .of_pullKey ps k (.inr rfl)
  · exact .of_pushKey ps k (.inr rfl)
  · exact .setInt (.inr rfl)
  · exact .unchanged

theorem TdaEffect.of_mapBuffer (ps : Params) (t : Tda) {i : Instr} (hi : i = .tMapBuffer ∨ i = .tWrCmd 0x0000#16) :
    TdaEffect ps t i (t.mapBuffer ps) := by
  rcases t.mapBuffer_cases ps with ⟨hfits, h⟩ | ⟨-, h⟩ <;> rw [h]
  · exact .mapBuffer hi hfits
  · exact .unchanged

theorem TdaEffect.of_mapFont (ps : Params) (t : Tda) {i : Instr} (hi : i = .tMapFont ∨ i = .tWrCmd 0x0001#16) :
    TdaEffect ps t i (t.mapFont ps) := by
  rcases t.mapFont_cases ps with ⟨hfits, h⟩ | ⟨-, h⟩ <;> rw [h]
  · exact .mapFont hi hfits
  · exact .unchanged

theorem TdaEffect.of_sendCmd (ps : Params) (t : Tda) (cmd : Word) :
    TdaEffect ps t (.tWrCmd cmd) (t.sendCmd ps cmd) := by
  rcases t.sendCmd_cases ps cmd with ⟨rfl, h⟩ | ⟨rfl, h⟩ | ⟨rfl, h⟩ | ⟨-, h⟩ <;> rw [h]
  · exact .of_mapBuffer ps t (.inr rfl)
  · exact .of_mapFont ps t (.inr rfl)
  · exact .setInt (.inr rfl)
  · exact .unchanged

/-! ## Every operation -/

/-- Everything an operation can do to the keyboard. -/
theorem exec_kbdEffect {i : Instr} {s s' : State} (hnext : exec i s = .next s') : KbdEffect s.params s.k i s'.k := by
  cases i with
  | kClrBuffer => cases hnext; exact .clear (.inl rfl)
  | kPullKey => cases hnext; exact .of_pullKey _ _ (.inl rfl)
  | kPushKey => cases hnext; exact .of_pushKey _ _ (.inl rfl)
  | kSetInt => cases hnext; exact .setInt (.inl rfl)
  | kWrCmd cmd => cases hnext; exact .of_sendCmd _ _ cmd
  | kWrA v => cases hnext; exact .writeA rfl
  | kWrB v => cases hnext; exact .writeB rfl
  | kWrC v => cases hnext; exact .writeC rfl
  | kReset => cases hnext; exact .reset rfl
  | kRaise => cases hnext; exact .raise rfl
  | kIack => cases hnext; exact .acknowledge rfl
  | kSet snap =>
    rcases execKSet_cases snap s with ⟨-, h⟩ | ⟨k, hk, h⟩ <;> cases h.symm.trans hnext
    · exact .unchanged
    · exact .restore rfl hk
  | kUnrecognized | kWrD | kWrE | kWrReserved | kRdCmd | kRdA | kRdB | kRdC | kRdD | kRdE | kRdReserved | kPoll | kIsSync
  | kGet => cases hnext; exact .unchanged
  | _ =>
    obtain ⟨hk, -⟩ := (devicesShareNothing _ _ _ hnext).2 rfl
    rw [hk]
    exact .unchanged

/-- Everything an operation can do to the TDA. -/
theorem exec_tdaEffect {i : Instr} {s s' : State} (hnext : exec i s = .next s') : TdaEffect s.params s.t i s'.t := by
  cases i with
  | tMapBuffer => cases hnext; exact .of_mapBuffer _ _ (.inl rfl)
  | tMapFont => cases hnext; exact .of_mapFont _ _ (.inl rfl)
  | tSetInt => cases hnext; exact .setInt (.inl rfl)
  | tWrCmd cmd => cases hnext; exact .of_sendCmd _ _ cmd
  | tWrA v => cases hnext; exact .writeA rfl
  | tWrB v => cases hnext; exact .writeB rfl
  | tWrD v => cases hnext; exact .writeD rfl
  | tWrE v => cases hnext; exact .writeE rfl
  | tReset => cases hnext; exact .reset rfl
  | tRaise => cases hnext; exact .raise rfl
  | tIack => cases hnext; exact .acknowledge rfl
  | tSet snap =>
    rcases execTSet_cases snap s with ⟨-, h⟩ | ⟨t, ht, h⟩ <;> cases h.symm.trans hnext
    · exact .unchanged
    · exact .restore rfl ht
  | tFrame =>
    rcases execTFrame_cases s with ⟨why, -, h⟩ | ⟨scr, -, h⟩ <;> cases h.symm.trans hnext
    exact .frame (.inl rfl)
  | tFrameSwap =>
    rcases execTFrameSwap_cases s with ⟨why, -, h⟩ | ⟨scr, -, h⟩ <;> cases h.symm.trans hnext
    exact .frame (.inr rfl)
  | tUnrecognized | tWrC | tWrReserved | tRdCmd | tRdA | tRdB | tRdC | tRdD | tRdE | tRdReserved | tPoll | tIsSync | tGet =>
    cases hnext; exact .unchanged
  | _ =>
    obtain ⟨ht, -⟩ := (devicesShareNothing _ _ _ hnext).1 rfl
    rw [ht]
    exact .unchanged

/-- No operation touches a parameter, a memory or the schedule (R3, R47). -/
theorem exec_frame {i : Instr} {s s' : State} (hnext : exec i s = .next s') :
    s'.params = s.params ∧ s'.ram = s.ram ∧ s'.rom = s.rom ∧ s'.inputs = s.inputs := by
  cases hdev : i.device with
  | kbd =>
    obtain ⟨k, o, h⟩ := exec_of_kbd hdev s
    cases h.symm.trans hnext
    exact ⟨rfl, rfl, rfl, rfl⟩
  | tda =>
    rcases exec_of_tda hdev s with ⟨t, o, h⟩ | ⟨-, why, -, h⟩ <;> cases h.symm.trans hnext
    exact ⟨rfl, rfl, rfl, rfl⟩

end Sys2Proof.Machine
end

section
/-! What is kept by every operation is kept by every run of operations, and by every move of the environment that
presents operations at the ports (R6, R157; log 1). -/

namespace Sys2Proof.Machine

/-- Every operation that completes takes a state that meets `P` to another. -/
def KeptByExec (P : State → Prop) : Prop :=
  ∀ ⦃i : Instr⦄ ⦃s s' : State⦄, exec i s = .next s' → P s → P s'

theorem KeptByExec.runRequest {P : State → Prop} (hP : KeptByExec P) {r : Request} {s s' : State}
    (hnext : runRequest r s = .next s') (hs : P s) : P s' := by
  rcases runRequest_cases r s with ⟨i, -, h⟩ | ⟨why, -, h⟩ <;> rw [h] at hnext
  · exact hP hnext hs
  · cases hnext

theorem KeptByExec.runRequests {P : State → Prop} (hP : KeptByExec P) {rs : List Request} {s s' : State}
    (hnext : runRequests rs s = .next s') (hs : P s) : P s' := by
  induction rs generalizing s with
  | nil => cases hnext; exact hs
  | cons r rs ih =>
    obtain ⟨u, hr, hrs⟩ := runRequests_cons_eq_next.1 hnext
    exact ih hrs (hP.runRequest hr hs)

/-- A refused frame of a sampled step changes nothing (R122). -/
theorem KeptByExec.runSampledFrame {P : State → Prop} (hP : KeptByExec P) {frame : Option Instr} {s s' : State}
    (hnext : runSampledFrame frame s = .next s') (hs : P s) : P s' := by
  rcases runSampledFrame_cases frame s with ⟨-, h⟩ | ⟨-, -, -, -, h⟩ | ⟨i, -, -, h⟩ <;> rw [h] at hnext
  · cases hnext; exact hs
  · cases hnext; exact hs
  · exact hP hnext hs

theorem KeptByExec.runSample {P : State → Prop} (hP : KeptByExec P) {d : Device} {p : PortLines} {s s' : State}
    (hnext : runSample d p s = .next s') (hs : P s) : P s' := by
  rcases runSample_cases d p s with ⟨u, hu, h⟩ | ⟨hstop, h⟩ <;> rw [h] at hnext
  · exact hP.runSampledFrame hnext (hP.runRequests hu hs)
  · exact absurd hnext (hstop s')

theorem KeptByExec.runBusAccess {P : State → Prop} (hP : KeptByExec P) {addr : Nat} {we : Bool} {wdata : Word}
    {s s' : State} (hnext : runBusAccess addr we wdata s = .next s') (hs : P s) : P s' := by
  rcases runBusAccess_cases addr we wdata s with ⟨-, h⟩ | ⟨d, slot, -, h⟩ | ⟨_, _, _, _, -, -, -, h⟩ <;>
    rw [h] at hnext
  · cases hnext; exact hs
  · exact hP.runRequest hnext hs
  · cases hnext

/-- A run keeps what each operation in it keeps. -/
theorem runInstrs_keeps {P : State → Prop} {is : List Instr} {s s' : State}
    (hP : ∀ i ∈ is, ∀ s s' : State, exec i s = .next s' → P s → P s')
    (hnext : runInstrs is s = .next s') (hs : P s) : P s' := by
  induction is generalizing s with
  | nil => cases hnext; exact hs
  | cons i is ih =>
    obtain ⟨u, hi, his⟩ := runInstrs_cons_eq_next.1 hnext
    obtain ⟨hPi, hPis⟩ := List.forall_mem_cons.1 hP
    exact ih hPis his (hPi s u hi hs)

end Sys2Proof.Machine
end

section
/-! The invariant of the model (R3, R14, R31 (i), R41). -/

namespace Sys2Proof.Machine

/-- The queue `SetState` leaves: the one it had, or a restored one of at most `BSIZE` events (R134). -/
theorem Keyboard.restore_q_length_le {ps : Params} {snap : Snapshot} {k k' : Keyboard}
    (hk : k.restore ps snap = some k') (hq : k.q.length ≤ ps.bsize) : k'.q.length ≤ ps.bsize := by
  rcases Keyboard.restore_cases ps snap k with ⟨-, h⟩ | ⟨a, b, c, d, e, more, -, h⟩ <;> cases h.symm.trans hk
  cases rawProp snap ps.kbdProps.queue with
  | none => exact hq
  | some bytes =>
    calc (restoredQueue ps.bsize bytes).length = min (bytes.length / 4) ps.bsize := restoredQueue_length _ _
      _ ≤ ps.bsize := Nat.min_le_right _ _

/-- R14, R31 (i): only a push lengthens the queue by one, and it needs room (R93); `SetState` cuts what it restores. -/
theorem KbdEffect.queue_length_le {ps : Params} {k k' : Keyboard} {i : Instr} (h : KbdEffect ps k i k')
    (hq : k.q.length ≤ ps.bsize) : k'.q.length ≤ ps.bsize := by
  cases h with
  | clear | reset => exact Nat.zero_le _
  | pull _ hback =>
    rw [hback, List.length_append] at hq
    exact Nat.le_of_add_right_le hq
  | push _ hroom => exact hroom
  | restore _ hk => exact Keyboard.restore_q_length_le hk hq
  | unchanged | pullEmpty | setInt | writeA | writeB | writeC | raise | acknowledge => exact hq

theorem inv_keptByExec : KeptByExec Inv := by
  intro i s s' hnext ⟨hqueue, hparams, hram, hramSize, hrom, hromSize⟩
  have hqueue' := (exec_kbdEffect hnext).queue_length_le hqueue
  obtain ⟨hp, hr, ho, -⟩ := exec_frame hnext
  unfold Inv
  rw [hp, hr, ho]
  exact ⟨hqueue', hparams, hram, hramSize, hrom, hromSize⟩

/-- A CPU write keeps RAM canonical and within its size (R41; log 4, log 5). -/
theorem cpuWrite_keeps_inv {a : Nat} {v : Byte} {s s' : State} (hnext : cpuWrite a v s = .next s') (hs : Inv s) :
    Inv s' := by
  obtain ⟨hqueue, hparams, hram, hramSize, hrom, hromSize⟩ := hs
  rcases cpuWrite_cases a v s with ⟨ha, h⟩ | ⟨-, h⟩ <;> cases h.symm.trans hnext
  exact ⟨hqueue, hparams, Memory.write_wf hram a v, Memory.write_bounded hramSize ha v, hrom, hromSize⟩

theorem runInput_keeps_inv {input : Input} {s s' : State} (hnext : runInput input s = .next s') (hs : Inv s) :
    Inv s' := by
  cases input with
  | request r => exact inv_keptByExec.runRequest hnext hs
  | sample d p => exact inv_keptByExec.runSample hnext hs
  | busAccess addr we wdata => exact inv_keptByExec.runBusAccess hnext hs
  | cpuWrite a v => exact cpuWrite_keeps_inv hnext hs

/-- The invariant does not speak of the schedule. -/
theorem inv_setInputs {s : State} {rest : List Input} : Inv (s.setInputs rest) ↔ Inv s :=
  Iff.rfl

/-- Settles O53: the idle step, or the first move of the schedule. -/
theorem stepKeepsTheInvariant : Obligations.StepKeepsTheInvariant := by
  intro s s' hs hnext
  rcases step_cases s with ⟨-, h⟩ | ⟨input, rest, -, h⟩ <;> rw [h] at hnext
  · cases hnext; exact hs
  · exact runInput_keeps_inv hnext (inv_setInputs.2 hs)

/-- Settles O54: at reset the queue and the memories are empty and every pointer is unmapped. -/
theorem resetMeetsTheInvariants : Obligations.ResetMeetsTheInvariants := by
  obtain ⟨hram, hrom⟩ := reset_memories_wf
  refine ⟨⟨Nat.zero_le _, reset_params_wf, hram, ?ram, hrom, ?rom⟩, ?packed, .inl rfl, .inl rfl, rfl, rfl⟩
  case ram | rom | packed => exact List.forall_mem_nil _

/-- Settles O47: both tables are the cleared devices, which `Reset` leaves from any state (R180, R181). -/
theorem resetStateIsTheTable : Obligations.ResetStateIsTheTable := by
  refine ⟨rfl, rfl, rfl, rfl, rfl, rfl, rfl, rfl, rfl, rfl, rfl, rfl, rfl, rfl, rfl, rfl, rfl, fun s => ⟨?kbd, ?tda⟩⟩
  case kbd => exact (rfl : execKReset s = .next (s.setKbd Keyboard.cleared))
  case tda => exact (rfl : execTReset s = .next (s.setTda Tda.cleared))

end Sys2Proof.Machine
end

section
/-! What keeps its form when nothing is restored from a snapshot (R31 (ii), (iv)). -/

namespace Sys2Proof.Machine

/-- A pushed event has bits 31:27 zero: its three fields end below bit 27 (R67). -/
theorem pack_top_bits (a b c : Word) : (pack a b c).extractLsb' 27 5 = 0#5 := by
  apply BitVec.eq_of_toNat_eq
  have hb := b.isLt
  rw [field_toNat, pack_toNat, BitVec.toNat_ofNat]
  omega

/-- R31 (ii): what enters the queue by any other way than `SetState` is a packed event. -/
theorem KbdEffect.keeps_events_packed {ps : Params} {k k' : Keyboard} {i : Instr} (h : KbdEffect ps k i k')
    (hset : ∀ snap : Snapshot, i ≠ .kSet snap) (hq : ∀ ev ∈ k.q, ev.extractLsb' 27 5 = 0#5) :
    ∀ ev ∈ k'.q, ev.extractLsb' 27 5 = 0#5 := by
  cases h with
  | clear | reset => exact List.forall_mem_nil _
  | pull _ hback =>
    rw [hback] at hq
    exact fun ev hev => hq ev (List.mem_append_left _ hev)
  | push => exact List.forall_mem_cons.2 ⟨pack_top_bits k.a k.b k.c, hq⟩
  | restore hi => exact absurd hi (hset _)
  | unchanged | pullEmpty | setInt | writeA | writeB | writeC | raise | acknowledge => exact hq

theorem exec_keeps_eventsPacked {i : Instr} (hset : ∀ snap : Snapshot, i ≠ .kSet snap) {s s' : State}
    (hnext : exec i s = .next s') (hs : EventsPacked s) : EventsPacked s' :=
  (exec_kbdEffect hnext).keeps_events_packed hset hs

/-- R31 (iv): a mapping commits a pointer that fits (R101, R102), and a write of `e` takes both flags along (R81). -/
theorem exec_keeps_tdaCoherent {i : Instr} (hset : ∀ snap : Snapshot, i ≠ .tSet snap) {s s' : State}
    (hnext : exec i s = .next s') (hs : TdaCoherent s) : TdaCoherent s' := by
  obtain ⟨hbuffer, hfont, hcursor, hblink⟩ := hs
  have heffect := exec_tdaEffect hnext
  obtain ⟨hparams, -⟩ := exec_frame hnext
  unfold TdaCoherent
  rw [hparams]
  generalize s'.t = t' at heffect
  cases heffect with
  | mapBuffer _ hfits => exact ⟨.inr hfits, hfont, hcursor, hblink⟩
  | mapFont _ hfits => exact ⟨hbuffer, .inr hfits, hcursor, hblink⟩
  | writeE => exact ⟨hbuffer, hfont, rfl, rfl⟩
  | reset => exact ⟨.inl rfl, .inl rfl, rfl, rfl⟩
  | restore hi => exact absurd hi (hset _)
  | unchanged | setInt | writeA | writeB | writeD | raise | acknowledge | frame =>
    exact ⟨hbuffer, hfont, hcursor, hblink⟩

/-- Settles O55: each operation of the run is no `SetState` of the device, so it keeps the device's form. -/
theorem withoutSetStateTheDevicesStayCoherent : Obligations.WithoutSetStateTheDevicesStayCoherent := by
  intro is s s' hrun
  exact ⟨fun hset => runInstrs_keeps (fun i hi _ _ => exec_keeps_eventsPacked (hset i hi)) hrun,
    fun hset => runInstrs_keeps (fun i hi _ _ => exec_keeps_tdaCoherent (hset i hi)) hrun⟩

end Sys2Proof.Machine
end

section
/-! Which operations write which element of a device (R10, R12, R14, R16, R18, R162): the operation is one of those
named, or the element is as it was. -/

namespace Sys2Proof.Machine

theorem KbdEffect.queue_writers {ps : Params} {k k' : Keyboard} {i : Instr} (h : KbdEffect ps k i k') :
    (i = .kPushKey ∨ i = .kPullKey ∨ i = .kClrBuffer ∨ i = .kWrCmd 0x0000#16 ∨ i = .kWrCmd 0x0001#16
        ∨ i = .kWrCmd 0x0002#16 ∨ i = .kReset ∨ ∃ snap : Snapshot, i = .kSet snap)
      ∨ k'.q = k.q := by
  cases h with
  | clear hi | pull hi | push hi => rcases hi with rfl | rfl <;> simp
  | reset hi => simp [hi]
  | restore hi => simp [hi]
  | unchanged | pullEmpty | setInt | writeA | writeB | writeC | raise | acknowledge => exact .inr rfl

theorem KbdEffect.register_writers {ps : Params} {k k' : Keyboard} {i : Instr} (h : KbdEffect ps k i k') :
    (i = .kPullKey ∨ i = .kWrCmd 0x0001#16 ∨ i = .kReset ∨ (∃ snap : Snapshot, i = .kSet snap)
        ∨ (∃ v : Word, i = .kWrA v ∨ i = .kWrB v ∨ i = .kWrC v))
      ∨ k'.a = k.a ∧ k'.b = k.b ∧ k'.c = k.c := by
  cases h with
  | pullEmpty hi | pull hi => rcases hi with rfl | rfl <;> simp
  | writeA hi | writeB hi | writeC hi => simp [hi]
  | reset hi => simp [hi]
  | restore hi => simp [hi]
  | unchanged | clear | push | setInt | raise | acknowledge => exact .inr ⟨rfl, rfl, rfl⟩

/-- Settles O51: an element that changed was not left as it was, so a writer of it ran. -/
theorem keyboardStateHasItsWriters : Obligations.KeyboardStateHasItsWriters := by
  intro i s s' hnext
  have heffect := exec_kbdEffect hnext
  refine ⟨fun hq => heffect.queue_writers.resolve_right hq, fun hregs => heffect.register_writers.resolve_right ?_⟩
  rwa [not_and_or, not_and_or]

theorem TdaEffect.bufferPtr_writers {ps : Params} {t t' : Tda} {i : Instr} (h : TdaEffect ps t i t') :
    (i = .tMapBuffer ∨ i = .tWrCmd 0x0000#16 ∨ i = .tReset ∨ ∃ snap : Snapshot, i = .tSet snap)
      ∨ t'.bufferPtr = t.bufferPtr := by
  cases h with
  | mapBuffer hi => rcases hi with rfl | rfl <;> simp
  | reset hi => simp [hi]
  | restore hi => simp [hi]
  | _ => exact .inr rfl

theorem TdaEffect.fontPtr_writers {ps : Params} {t t' : Tda} {i : Instr} (h : TdaEffect ps t i t') :
    (i = .tMapFont ∨ i = .tWrCmd 0x0001#16 ∨ i = .tReset ∨ ∃ snap : Snapshot, i = .tSet snap)
      ∨ t'.fontPtr = t.fontPtr := by
  cases h with
  | mapFont hi => rcases hi with rfl | rfl <;> simp
  | reset hi => simp [hi]
  | restore hi => simp [hi]
  | _ => exact .inr rfl

/-- The flags and `T.e` have the same writers (R81). -/
theorem TdaEffect.flag_writers {ps : Params} {t t' : Tda} {i : Instr} (h : TdaEffect ps t i t') :
    ((∃ v : Word, i = .tWrE v) ∨ i = .tReset ∨ ∃ snap : Snapshot, i = .tSet snap)
      ∨ t'.cursor = t.cursor ∧ t'.blink = t.blink ∧ t'.e = t.e := by
  cases h with
  | writeE hi => simp [hi]
  | reset hi => simp [hi]
  | restore hi => simp [hi]
  | _ => exact .inr ⟨rfl, rfl, rfl⟩

theorem TdaEffect.register_writers {ps : Params} {t t' : Tda} {i : Instr} (h : TdaEffect ps t i t') :
    ((∃ v : Word, i = .tWrA v ∨ i = .tWrB v ∨ i = .tWrD v) ∨ i = .tReset ∨ ∃ snap : Snapshot, i = .tSet snap)
      ∨ t'.a = t.a ∧ t'.b = t.b ∧ t'.d = t.d := by
  cases h with
  | writeA hi | writeB hi | writeD hi => simp [hi]
  | reset hi => simp [hi]
  | restore hi => simp [hi]
  | _ => exact .inr ⟨rfl, rfl, rfl⟩

/-- `SetState` keeps the blink counter (R135, R162). -/
theorem Tda.restore_blinkCtr {ps : Params} {snap : Snapshot} {t t' : Tda} (ht : t.restore ps snap = some t') :
    t'.blinkCtr = t.blinkCtr := by
  rcases Tda.restore_cases ps snap t with ⟨-, h⟩ | ⟨a, b, c, d, e, more, -, h⟩ <;> cases h.symm.trans ht
  rfl

theorem TdaEffect.blinkCtr_writers {ps : Params} {t t' : Tda} {i : Instr} (h : TdaEffect ps t i t') :
    (i = .tFrame ∨ i = .tFrameSwap ∨ i = .tReset) ∨ t'.blinkCtr = t.blinkCtr := by
  cases h with
  | frame hi => rcases hi with rfl | rfl <;> simp
  | reset hi => simp [hi]
  | restore _ ht => exact .inr (Tda.restore_blinkCtr ht)
  | _ => exact .inr rfl

/-- Settles O52, in the same way, element by element of the TDA. -/
theorem tdaStateHasItsWriters : Obligations.TdaStateHasItsWriters := by
  intro i s s' hnext
  have heffect := exec_tdaEffect hnext
  refine ⟨heffect.bufferPtr_writers.resolve_right, heffect.fontPtr_writers.resolve_right,
    fun hflags => heffect.flag_writers.resolve_right ?flags, fun hregs => heffect.register_writers.resolve_right ?regs,
    heffect.blinkCtr_writers.resolve_right⟩
  case flags | regs => rwa [not_and_or, not_and_or]

end Sys2Proof.Machine
end

section
/-! Pushes one after another: the queue takes the first events there is room for (R14, R93). -/

namespace Sys2Proof.Machine

/-- The operations that push the event `(a, b, c)`: its three register values, then `PUSH_KEY`. -/
def pushEvent (e : Word × Word × Word) : List Instr :=
  [.kWrA e.1, .kWrB e.2.1, .kWrC e.2.2, .kPushKey]

/-- The event those operations push (R67). -/
def packEvent (e : Word × Word × Word) : Event :=
  pack e.1 e.2.1 e.2.2

theorem runInstrs_pushEvent (e : Word × Word × Word) (s : State) :
    runInstrs (pushEvent e) s
      = .next (s.setKbd (Keyboard.pushKey s.params.bsize { s.k with a := e.1, b := e.2.1, c := e.2.2 })) :=
  rfl

/-- Pushing one event: it goes to the front of the queue, or the queue is full and it is lost (R93). -/
theorem runInstrs_pushEvent_cases (e : Word × Word × Word) (s : State) :
    ∃ s', runInstrs (pushEvent e) s = .next s' ∧ s'.params = s.params
      ∧ (s.k.q.length < s.params.bsize ∧ s'.k.q = packEvent e :: s.k.q
        ∨ s.params.bsize ≤ s.k.q.length ∧ s'.k.q = s.k.q) := by
  refine ⟨_, runInstrs_pushEvent e s, rfl, ?_⟩
  rw [State.setKbd_k]
  rcases Keyboard.pushKey_cases s.params.bsize { s.k with a := e.1, b := e.2.1, c := e.2.2 } with
    ⟨hroom, h⟩ | ⟨hfull, h⟩ <;> rw [h]
  · exact .inl ⟨hroom, rfl⟩
  · exact .inr ⟨hfull, rfl⟩

/-- Pushing events: the first ones, as many as there is room for, stand before the queue, the last of them in front. -/
theorem runInstrs_pushEvents (evs : List (Word × Word × Word)) (s : State) :
    ∃ s', runInstrs (evs.flatMap pushEvent) s = .next s' ∧ s'.params = s.params
      ∧ s'.k.q = ((evs.take (s.params.bsize - s.k.q.length)).map packEvent).reverse ++ s.k.q := by
  induction evs generalizing s with
  | nil => exact ⟨s, rfl, rfl, by simp⟩
  | cons e evs ih =>
    obtain ⟨u, hu, hparams, hpush⟩ := runInstrs_pushEvent_cases e s
    obtain ⟨s', hs', hparams', hq'⟩ := ih u
    refine ⟨s', ?_, hparams'.trans hparams, ?_⟩
    · rw [List.flatMap_cons, runInstrs_append_of_next hu, hs']
    rw [hq', hparams]
    rcases hpush with ⟨hroom, hq⟩ | ⟨hfull, hq⟩ <;> rw [hq]
    · obtain ⟨room, hsize⟩ : ∃ room, s.params.bsize - s.k.q.length = room + 1 :=
        Nat.exists_eq_add_one.2 (Nat.sub_pos_of_lt hroom)
      have hsize' : s.params.bsize - (s.k.q.length + 1) = room := by omega
      simp [hsize, hsize']
    · simp [Nat.sub_eq_zero_of_le hfull]

/-- Settles O21: an empty queue has room for `BSIZE` events. -/
theorem overflowKeepsTheFirstEvents : Obligations.OverflowKeepsTheFirstEvents := by
  intro s evs hempty
  obtain ⟨s', hrun, -, hq⟩ := runInstrs_pushEvents evs s
  rw [hempty, List.length_nil, Nat.sub_zero, List.append_nil] at hq
  refine ⟨s', hrun, hq, ?_⟩
  rw [hq, List.length_reverse, List.length_map]
  exact List.length_take_le _ _

end Sys2Proof.Machine
end

section
/-! The memories the devices read (R40 to R47, R52, R53): the CPU writes a byte of RAM, no operation writes any, and no
operation but the two frames depends on what they hold. -/

namespace Sys2Proof.Machine

/-- A CPU write to an existing index is seen by every later read of that index and of no other (R41, R52, R53). -/
theorem readRam_setRam_write {s : State} (hwf : s.ram.wf) (a : Nat) (v : Byte) (x : Nat) :
    (s.setRam (s.ram.write a v)).readRam x = if x = a then v else s.readRam x :=
  Memory.read_write hwf a v x

/-- Settles O56: inside RAM the byte is stored, outside it the write is the fault `ramHole`. -/
theorem cpuWriteChangesOneByte : Obligations.CpuWriteChangesOneByte := by
  intro s a v rest hinputs hwf
  have hstep : step s = cpuWrite a v (s.setInputs rest) := step_of_inputs hinputs
  rcases cpuWrite_cases a v (s.setInputs rest) with ⟨hinside, hwrite⟩ | ⟨houtside, hfault⟩
  · refine ⟨fun _ => ⟨_, hstep.trans hwrite, rfl, readRam_setRam_write (s := s.setInputs rest) hwf a v⟩, fun hle => ?_⟩
    exact absurd hinside (Nat.not_lt.2 hle)
  · exact ⟨fun hlt => absurd hlt (Nat.not_lt.2 houtside), fun _ => hstep.trans hfault⟩

/-- The state with other contents of RAM, ROM and `FONT_ROM`. -/
def State.withMemories (s : State) (ram rom : Memory) (font : Vector Byte 2048) : State :=
  { s with ram := ram, rom := rom, params := { s.params with fontRom := font } }

section
variable (s : State) (ram rom : Memory) (font : Vector Byte 2048)

@[simp] theorem State.withMemories_params :
    (s.withMemories ram rom font).params = { s.params with fontRom := font } := rfl
@[simp] theorem State.withMemories_k : (s.withMemories ram rom font).k = s.k := rfl
@[simp] theorem State.withMemories_t : (s.withMemories ram rom font).t = s.t := rfl
@[simp] theorem State.withMemories_kOut : (s.withMemories ram rom font).kOut = s.kOut := rfl
@[simp] theorem State.withMemories_tOut : (s.withMemories ram rom font).tOut = s.tOut := rfl

/-! What an operation replaces of a device stands beside the memories. -/

@[simp] theorem State.setKbd_withMemories (k : Keyboard) :
    (s.setKbd k).withMemories ram rom font = (s.withMemories ram rom font).setKbd k := rfl
@[simp] theorem State.setTda_withMemories (t : Tda) :
    (s.setTda t).withMemories ram rom font = (s.withMemories ram rom font).setTda t := rfl
@[simp] theorem State.setKOut_withMemories (o : PortOut) :
    (s.setKOut o).withMemories ram rom font = (s.withMemories ram rom font).setKOut o := rfl
@[simp] theorem State.setTOut_withMemories (o : PortOut) :
    (s.setTOut o).withMemories ram rom font = (s.withMemories ram rom font).setTOut o := rfl

end

/-- `SetState` on the keyboard takes `BSIZE` and the property names from the parameters, not the font (R134). -/
@[simp] theorem Keyboard.restore_fontRom (ps : Params) (font : Vector Byte 2048) (snap : Snapshot) (k : Keyboard) :
    k.restore { ps with fontRom := font } snap = k.restore ps snap := rfl

/-- `SetState` on the TDA takes the property names from the parameters, not the font (R135). -/
@[simp] theorem Tda.restore_fontRom (ps : Params) (font : Vector Byte 2048) (snap : Snapshot) (t : Tda) :
    t.restore { ps with fontRom := font } snap = t.restore ps snap := rfl

theorem execKSet_withMemories {snap : Snapshot} {s s' : State} (hnext : execKSet snap s = .next s')
    (ram rom : Memory) (font : Vector Byte 2048) :
    execKSet snap (s.withMemories ram rom font) = .next (s'.withMemories ram rom font) := by
  rcases execKSet_cases snap s with ⟨hk, h⟩ | ⟨k, hk, h⟩ <;> cases h.symm.trans hnext
  · simp [execKSet, hk]
  · simp [execKSet, hk]

theorem execTSet_withMemories {snap : Snapshot} {s s' : State} (hnext : execTSet snap s = .next s')
    (ram rom : Memory) (font : Vector Byte 2048) :
    execTSet snap (s.withMemories ram rom font) = .next (s'.withMemories ram rom font) := by
  rcases execTSet_cases snap s with ⟨ht, h⟩ | ⟨t, ht, h⟩ <;> cases h.symm.trans hnext
  · simp [execTSet, ht]
  · simp [execTSet, ht]

/-- An operation other than the frames does the same whatever RAM, ROM and `FONT_ROM` hold (R47):
of the parameters it takes at most `BSIZE`, the sizes of the regions and the property names. -/
theorem exec_withMemories {i : Instr} (hframe : i ≠ .tFrame) (hswap : i ≠ .tFrameSwap) {s s' : State}
    (hnext : exec i s = .next s') (ram rom : Memory) (font : Vector Byte 2048) :
    exec i (s.withMemories ram rom font) = .next (s'.withMemories ram rom font) := by
  cases i with
  | tFrame => exact absurd rfl hframe
  | tFrameSwap => exact absurd rfl hswap
  | kSet snap => exact execKSet_withMemories hnext ram rom font
  | tSet snap => exact execTSet_withMemories hnext ram rom font
  | _ => cases hnext; rfl

/-- Settles O50: an operation leaves the memories in place, and one that is no frame does not look at them. -/
theorem memoryIsReadOnlyAndOnlyByFrames : Obligations.MemoryIsReadOnlyAndOnlyByFrames := by
  intro i s s' hnext
  obtain ⟨hparams, hram, hrom, hinputs⟩ := exec_frame hnext
  refine ⟨fun a => ⟨congrArg (Memory.read · a) hram, congrArg (Memory.read · a) hrom⟩, hparams, hinputs, ?_⟩
  exact fun hframe hswap => exec_withMemories hframe hswap hnext

end Sys2Proof.Machine
end

section
/-! The decoder and the encoder (R60 to R70): they agree on every well-formed instruction, and the command maps. -/

namespace Sys2Proof

/-- Settles O5. Well-formedness is needed where the types leave an operand open: an unrecognized code, a reserved slot,
a snapshot. Every other instruction is read back from its own row of the tables, whatever data word it carries. -/
theorem decodeInvertsEncode : Obligations.DecodeInvertsEncode := by
  intro i hwf
  cases i with
  | kUnrecognized code => exact Laws.EncodeDecodes.kUnrecognized code hwf
  | tUnrecognized code => exact Laws.EncodeDecodes.tUnrecognized code hwf
  | kWrReserved slot v => exact Laws.EncodeDecodes.kWrReserved slot v hwf
  | kRdReserved slot => exact Laws.EncodeDecodes.kRdReserved slot hwf
  | tWrReserved slot v => exact Laws.EncodeDecodes.tWrReserved slot v hwf
  | tRdReserved slot => exact Laws.EncodeDecodes.tRdReserved slot hwf
  | kSet snap => exact Laws.EncodeDecodes.kSet snap hwf
  | tSet snap => exact Laws.EncodeDecodes.tSet snap hwf
  | kClrBuffer | kPullKey | kPushKey | kSetInt | tMapBuffer | tMapFont | tSetInt => rfl
  | kWrCmd | kWrA | kWrB | kWrC | kWrD | kWrE | kRdCmd | kRdA | kRdB | kRdC | kRdD | kRdE => rfl
  | tWrCmd | tWrA | tWrB | tWrC | tWrD | tWrE | tRdCmd | tRdA | tRdB | tRdC | tRdD | tRdE => rfl
  | kReset | kRaise | kPoll | kIack | kIsSync | kGet => rfl
  | tReset | tRaise | tPoll | tIack | tIsSync | tGet | tFrame | tFrameSwap => rfl

/-- Settles O6, format by format: what decodes is well formed and of the request's device. -/
theorem decodedRunsOnItsDevice : Obligations.DecodedRunsOnItsDevice := by
  intro i
  refine ⟨fun d code hcmd => ?_, fun d pattern wdata hbus => ?_, fun d line pattern hstrobe => ?_⟩
  · exact decode_wellFormed hcmd
  · exact decode_wellFormed hbus
  · exact decode_wellFormed hstrobe

/-- A command word that the keyboard's table does not list (R61). -/
theorem decode_kbdCommand_of_ge {code : Word} (h : 0x0004 ≤ code.toNat) :
    decode (.cmd .kbd code) = .ok (.kUnrecognized code) :=
  congrArg Except.ok (Laws.decodeKbdCommand_of_ge h)

/-- A command word that the TDA's table does not list (R62). -/
theorem decode_tdaCommand_of_ge {code : Word} (h : 0x0003 ≤ code.toNat) :
    decode (.cmd .tda code) = .ok (.tUnrecognized code) :=
  congrArg Except.ok (Laws.decodeTdaCommand_of_ge h)

/-- Settles O7: the listed codes each by their row, the words above them by one range. -/
theorem commandMaps : Obligations.CommandMaps :=
  ⟨⟨rfl, rfl, rfl, rfl, fun _ => decode_kbdCommand_of_ge⟩, rfl, rfl, rfl, fun _ => decode_tdaCommand_of_ge⟩

/-- Settles O8: the decoder evaluated at each word. Word 3 is the first that is no command of the TDA (R62). -/
theorem sampleWordsDecode : Obligations.SampleWordsDecode :=
  ⟨rfl, rfl, decode_tdaCommand_of_ge (code := 3#16) (by decide), rfl, rfl, rfl, rfl, rfl, rfl, rfl⟩

end Sys2Proof
end

section
/-! `pack` and `unpack` (R67): each field of a packed event holds its register's low bits, and the unused bits 31:27
hold zero. The three laws follow. -/

namespace Sys2Proof.Machine

/-- Keeping the low `n` bits of a word is the remainder by `2 ^ n`. -/
theorem and_lowBits_toNat {w n : Nat} (h : n ≤ w) (v : BitVec w) :
    (v &&& BitVec.ofNat w (2 ^ n - 1)).toNat = v.toNat % 2 ^ n := by
  have hmask : 2 ^ n - 1 < 2 ^ w :=
    Nat.lt_of_lt_of_le (Nat.sub_one_lt (Nat.two_pow_pos n).ne') (Nat.pow_le_pow_right (by decide) h)
  rw [BitVec.toNat_and, BitVec.toNat_ofNat, Nat.mod_eq_of_lt hmask, Nat.and_two_pow_sub_one_eq_mod]

/-- A low field, zero-extended, is the word with the bits above the field cleared. -/
theorem setWidth_lowField {w n : Nat} (h : n ≤ w) (v : BitVec w) :
    (v.extractLsb' 0 n).setWidth w = v &&& BitVec.ofNat w (2 ^ n - 1) := by
  apply BitVec.eq_of_toNat_eq
  rw [BitVec.toNat_setWidth_of_le h, field_toNat, and_lowBits_toNat h, Nat.pow_zero, Nat.div_one]

theorem pack_keycodeField (a b c : Word) : (pack a b c).extractLsb' 16 8 = a.extractLsb' 0 8 := by
  apply BitVec.eq_of_toNat_eq
  have hb := b.isLt
  rw [field_toNat, field_toNat, pack_toNat]
  omega

theorem pack_scancodeField (a b c : Word) : (pack a b c).extractLsb' 0 16 = b := by
  apply BitVec.eq_of_toNat_eq
  have hb := b.isLt
  rw [field_toNat, pack_toNat]
  omega

theorem pack_statusField (a b c : Word) : (pack a b c).extractLsb' 24 3 = c.extractLsb' 0 3 := by
  apply BitVec.eq_of_toNat_eq
  have hb := b.isLt
  rw [field_toNat, field_toNat, pack_toNat]
  omega

/-! `unpack(pack(a, b, c)) = (a & 0x00FF, b, c & 0x0007)`. -/

@[simp] theorem eventKeycode_pack (a b c : Word) : eventKeycode (pack a b c) = a &&& 0x00FF#16 := by
  rw [eventKeycode, pack_keycodeField]
  exact setWidth_lowField (n := 8) (by decide) a

@[simp] theorem eventScancode_pack (a b c : Word) : eventScancode (pack a b c) = b :=
  pack_scancodeField a b c

@[simp] theorem eventStatus_pack (a b c : Word) : eventStatus (pack a b c) = c &&& 0x0007#16 := by
  rw [eventStatus, pack_statusField]
  exact setWidth_lowField (n := 3) (by decide) c

/-- `pack(unpack(ev)) = ev & 0x07FFFFFF`: the three fields are bits 26:0 of the event. -/
theorem pack_unpack (ev : Event) :
    pack (eventKeycode ev) (eventScancode ev) (eventStatus ev) = ev &&& 0x07FFFFFF#32 := by
  apply BitVec.eq_of_toNat_eq
  have hmask : (ev &&& 0x07FFFFFF#32).toNat = ev.toNat % 2 ^ 27 := and_lowBits_toNat (n := 27) (by decide) ev
  rw [hmask, pack_toNat, eventKeycode_toNat, eventScancode_toNat, eventStatus_toNat]
  omega

/-- `pack` is injective on `(a[7:0], b, c[2:0])`: each of them is a field of the event. -/
theorem pack_injective {a b c a' b' c' : Word} (h : pack a b c = pack a' b' c') :
    a.extractLsb' 0 8 = a'.extractLsb' 0 8 ∧ b = b' ∧ c.extractLsb' 0 3 = c'.extractLsb' 0 3 := by
  rw [← pack_keycodeField a b c, ← pack_statusField a b c, h, pack_keycodeField, pack_statusField]
  refine ⟨rfl, ?_, rfl⟩
  rw [← pack_scancodeField a b c, h, pack_scancodeField]

/-- Settles O19: the fields as numbers, then the three laws. -/
theorem packAndUnpackAgree : Obligations.PackAndUnpackAgree :=
  ⟨pack_toNat, fun ev => ⟨eventKeycode_toNat ev, eventScancode_toNat ev, eventStatus_toNat ev⟩,
    fun a b c => ⟨eventKeycode_pack a b c, eventScancode_pack a b c, eventStatus_pack a b c⟩,
    pack_unpack, fun _ _ _ _ _ _ => pack_injective⟩

end Sys2Proof.Machine
end

section
/-! The register port (R64, R80 to R84): how its transactions decode, and slot 0's command. -/

namespace Sys2Proof.Machine

/-- A read's operation is chosen by the device and the slot alone, whatever the data lines hold (R64, R82). -/
theorem decode_read_anyData (d : Device) (slot : BitVec 3) (wdata : Word) :
    decode (.bus d (slot.setWidth 8) wdata) = decode (busRead d slot) := by
  have hslot : ∀ slot : BitVec 3, slot = 0#3 ∨ slot = 1#3 ∨ slot = 2#3 ∨ slot = 3#3 ∨ slot = 4#3 ∨ slot = 5#3
      ∨ slot = 6#3 ∨ slot = 7#3 := by
    decide
  cases d <;> rcases hslot slot with rfl | rfl | rfl | rfl | rfl | rfl | rfl | rfl <;> rfl

/-- In the pattern of a write, the bit `we` stands above the slot's three: setting it is adding 8 (R64). -/
theorem busWrite_eq_bus_add (d : Device) (slot : BitVec 3) (wdata : Word) :
    busWrite d slot wdata = .bus d (8#8 + slot.setWidth 8) wdata := by
  have hpattern : ∀ slot : BitVec 3, 8#8 ||| slot.setWidth 8 = 8#8 + slot.setWidth 8 := by decide
  rw [busWrite, hpattern]

/-- The command a word decodes to on the keyboard is `SendCMD` of that word (R61, R90). -/
theorem exec_decodeKbdCommand (cmd : Word) (s : State) :
    exec (decodeKbdCommand cmd) s = .next (s.setKbd (s.k.sendCmd s.params.bsize cmd)) := by
  rcases s.k.sendCmd_cases s.params.bsize cmd with ⟨rfl, h⟩ | ⟨rfl, h⟩ | ⟨rfl, h⟩ | ⟨rfl, h⟩ | ⟨hcmd, h⟩ <;> rw [h]
  case inr.inr.inr.inr =>
    rw [Laws.decodeKbdCommand_of_ge hcmd]
    rfl
  all_goals rfl

/-- The command a word decodes to on the TDA is `SendCMD` of that word (R62, R100). -/
theorem exec_decodeTdaCommand (cmd : Word) (s : State) :
    exec (decodeTdaCommand cmd) s = .next (s.setTda (s.t.sendCmd s.params cmd)) := by
  rcases s.t.sendCmd_cases s.params cmd with ⟨rfl, h⟩ | ⟨rfl, h⟩ | ⟨rfl, h⟩ | ⟨hcmd, h⟩ <;> rw [h]
  case inr.inr.inr =>
    rw [Laws.decodeTdaCommand_of_ge hcmd]
    rfl
  all_goals rfl

/-- Settles O12: a write of slot 0 is `SendCMD` of its word, which is what the decoded command does. -/
theorem commandSlotSendsCommands : Obligations.CommandSlotSendsCommands := by
  intro s w
  refine ⟨⟨decodeInvertsEncode (.kWrCmd w) rfl, ?kbd⟩, ⟨decodeInvertsEncode (.tWrCmd w) rfl, ?tda⟩,
    ⟨decode_read_anyData .kbd 0#3 w, rfl⟩, decode_read_anyData .tda 0#3 w, rfl⟩
  case kbd => exact ⟨decodeKbdCommand w, _, rfl, exec_decodeKbdCommand w s, rfl⟩
  case tda => exact ⟨decodeTdaCommand w, _, rfl, exec_decodeTdaCommand w s, rfl⟩

/-- Settles O10, slot by slot: the pattern is the one the operation is encoded with, so it decodes to it. -/
theorem registerWritesStore : Obligations.RegisterWritesStore := by
  intro s v
  exact ⟨⟨decodeInvertsEncode (.kWrA v) rfl, rfl⟩, ⟨decodeInvertsEncode (.kWrB v) rfl, rfl⟩,
    ⟨decodeInvertsEncode (.kWrC v) rfl, rfl⟩, ⟨decodeInvertsEncode (.kWrD v) rfl, rfl⟩,
    ⟨decodeInvertsEncode (.kWrE v) rfl, rfl⟩, ⟨decodeInvertsEncode (.tWrA v) rfl, rfl⟩,
    ⟨decodeInvertsEncode (.tWrB v) rfl, rfl⟩, ⟨decodeInvertsEncode (.tWrC v) rfl, rfl⟩,
    ⟨decodeInvertsEncode (.tWrD v) rfl, rfl⟩, decodeInvertsEncode (.tWrE v) rfl, rfl⟩

/-- Settles O11, slot by slot: each read is the encoding of its operation, but for data lines that are not looked at. -/
theorem registerReadsReturn : Obligations.RegisterReadsReturn := by
  intro s w
  exact ⟨⟨decode_read_anyData .kbd 1#3 w, rfl⟩, ⟨decode_read_anyData .kbd 2#3 w, rfl⟩,
    ⟨decode_read_anyData .kbd 3#3 w, rfl⟩, ⟨decode_read_anyData .kbd 4#3 w, rfl⟩,
    ⟨decode_read_anyData .kbd 5#3 w, rfl⟩, ⟨decode_read_anyData .tda 1#3 w, rfl⟩,
    ⟨decode_read_anyData .tda 2#3 w, rfl⟩, ⟨decode_read_anyData .tda 3#3 w, rfl⟩,
    ⟨decode_read_anyData .tda 4#3 w, rfl⟩, decode_read_anyData .tda 5#3 w, rfl⟩

/-- Settles O13: slots 6 and 7 are where a reserved transaction is well formed, so its encoding is read back. -/
theorem reservedSlotsAreInert : Obligations.ReservedSlotsAreInert := by
  intro s slot v hslot
  have hwf : reservedSlot slot = true := (Laws.reservedSlot_iff slot).2 hslot
  rw [← busWrite_eq_bus_add, ← busWrite_eq_bus_add, decode_read_anyData, decode_read_anyData]
  exact ⟨decodeInvertsEncode (.kWrReserved slot v) hwf, decodeInvertsEncode (.tWrReserved slot v) hwf,
    decodeInvertsEncode (.kRdReserved slot) hwf, decodeInvertsEncode (.tRdReserved slot) hwf, rfl, rfl, rfl, rfl⟩

end Sys2Proof.Machine
end

section
/-! The keyboard's commands (R90 to R95) as operations on the whole machine, and the commands that are none (R104). -/

namespace Sys2Proof.Machine

theorem exec_kPullKey (s : State) : exec .kPullKey s = .next (s.setKbd s.k.pullKey) :=
  rfl

theorem exec_kPushKey (s : State) : exec .kPushKey s = .next (s.setKbd (s.k.pushKey s.params.bsize)) :=
  rfl

/-- Settles O14: the word is the encoding of the operation, whose meaning on the whole state is the one stated. -/
theorem clrBufferEmptiesQueue : Obligations.ClrBufferEmptiesQueue :=
  fun _ => ⟨decodeInvertsEncode .kClrBuffer rfl, rfl⟩

/-- Settles O15: a queue with a back gives it up, an empty one gives zeros. -/
theorem pullKeyTakesTheOldest : Obligations.PullKeyTakesTheOldest := by
  intro s
  refine ⟨decodeInvertsEncode .kPullKey rfl, fun q ev hq => ?_, fun hempty => ?_⟩
  · rw [exec_kPullKey, Keyboard.pullKey_of_snoc hq]
    rfl
  · rw [exec_kPullKey, Keyboard.pullKey_of_empty hempty]
    rfl

/-- Settles O16: the event is `pack` of the three registers, whether there is room for it or not. -/
theorem pushKeyAddsAtTheFront : Obligations.PushKeyAddsAtTheFront := by
  intro s
  refine ⟨decodeInvertsEncode .kPushKey rfl, pack s.k.a s.k.b s.k.c, pack_toNat .., ?_⟩
  rw [exec_kPushKey]
  rcases s.k.pushKey_cases s.params.bsize with ⟨hroom, hpush⟩ | ⟨hfull, hpush⟩ <;> rw [hpush]
  · exact ⟨fun _ => rfl, fun hnoRoom => absurd hroom hnoRoom.not_gt⟩
  · exact ⟨fun hroom => absurd hroom hfull.not_gt, fun _ => rfl⟩

/-- Settles O17, as O14: only the message of the latch is written. -/
theorem kbdSetIntCopiesA : Obligations.KbdSetIntCopiesA :=
  fun _ => ⟨decodeInvertsEncode .kSetInt rfl, rfl⟩

/-- Settles O18: the words from 4 on are no keyboard command, those from 3 on no TDA command. -/
theorem unrecognizedCommandsAreNoOps : Obligations.UnrecognizedCommandsAreNoOps :=
  fun _ _ => ⟨fun hcode => ⟨decode_kbdCommand_of_ge hcode, rfl⟩, fun hcode => ⟨decode_tdaCommand_of_ge hcode, rfl⟩⟩

end Sys2Proof.Machine
end

section
/-! Pulls one after another, and after pushes: the events leave the queue in the order they entered it (R92, R93). -/

namespace Sys2Proof.Machine

/-- As many pulls as there are events at the back of the queue take those events, the oldest first. -/
theorem runInstrs_pulls {q evs : List Event} {s : State} (hq : s.k.q = q ++ evs.reverse) :
    ∃ t, runInstrs (List.replicate evs.length .kPullKey) s = .next t ∧ t.k.q = q := by
  induction evs generalizing s with
  | nil => exact ⟨s, rfl, by simpa using hq⟩
  | cons ev evs ih =>
    have hback : s.k.q = (q ++ evs.reverse) ++ [ev] := by simpa using hq
    have hpulled : (s.setKbd s.k.pullKey).k.q = q ++ evs.reverse := by
      rw [State.setKbd_k, Keyboard.pullKey_of_snoc hback]
    obtain ⟨t, hrun, ht⟩ := ih hpulled
    refine ⟨t, ?_, ht⟩
    rw [List.length_cons, List.replicate_succ, runInstrs_cons_next (exec_kPullKey s), hrun]

/-- Pushing events into an empty queue with room for all of them, then pulling some: the later ones are left. -/
theorem runInstrs_pushEvents_pulls {before after : List (Word × Word × Word)} {s : State} (hempty : s.k.q = [])
    (hroom : (before ++ after).length ≤ s.params.bsize) :
    ∃ t, runInstrs ((before ++ after).flatMap pushEvent ++ List.replicate before.length .kPullKey) s = .next t
      ∧ t.k.q = (after.map packEvent).reverse := by
  obtain ⟨u, hpush, -, hu⟩ := runInstrs_pushEvents (before ++ after) s
  have hqueue : u.k.q = (after.map packEvent).reverse ++ (before.map packEvent).reverse := by
    rw [hu, hempty, List.length_nil, Nat.sub_zero, List.take_of_length_le hroom, List.append_nil, List.map_append,
      List.reverse_append]
  obtain ⟨t, hpull, ht⟩ := runInstrs_pulls hqueue
  rw [List.length_map] at hpull
  exact ⟨t, by rw [runInstrs_append_of_next hpush, hpull], ht⟩

/-- One more pull at the end of a run that ends in pulls. -/
theorem runInstrs_pull_succ {is : List Instr} {n : Nat} {s t : State}
    (hrun : runInstrs (is ++ List.replicate n .kPullKey) s = .next t) :
    runInstrs (is ++ List.replicate (n + 1) .kPullKey) s = .next (t.setKbd t.k.pullKey) := by
  rw [List.replicate_succ', ← List.append_assoc, runInstrs_append_of_next hrun]
  rfl

/-- Settles O20: when the events pushed before one are pulled, that event is at the back of the queue; when all are
pulled, the queue is empty. The next pull finds it so. -/
theorem keyQueueIsFifo : Obligations.KeyQueueIsFifo := by
  intro s evs hempty hroom
  refine ⟨?inOrder, ?thenZeros⟩
  case inOrder =>
    rintro before after a b c rfl
    obtain ⟨t, hrun, hq⟩ := runInstrs_pushEvents_pulls hempty hroom
    have hback : t.k.q = (after.map packEvent).reverse ++ [pack a b c] := by
      rw [hq, List.map_cons, List.reverse_cons, packEvent]
    refine ⟨_, runInstrs_pull_succ hrun, ?_⟩
    rw [State.setKbd_k, Keyboard.pullKey_of_snoc hback]
    exact ⟨eventKeycode_pack a b c, eventScancode_pack a b c, eventStatus_pack a b c⟩
  case thenZeros =>
    rw [← List.append_nil evs] at hroom
    obtain ⟨t, hrun, hq⟩ := runInstrs_pushEvents_pulls hempty hroom
    rw [List.append_nil] at hrun
    refine ⟨_, runInstrs_pull_succ hrun, ?_⟩
    rw [State.setKbd_k, Keyboard.pullKey_of_empty hq]
    exact ⟨hq, rfl, rfl, rfl⟩

end Sys2Proof.Machine
end

section
/-! The TDA's commands (R101 to R103) as operations on the whole machine, and the output `sync_dev` (R105). -/

namespace Sys2Proof.Machine

theorem exec_tMapBuffer (s : State) : exec .tMapBuffer s = .next (s.setTda (s.t.mapBuffer s.params)) :=
  rfl

theorem exec_tMapFont (s : State) : exec .tMapFont s = .next (s.setTda (s.t.mapFont s.params)) :=
  rfl

/-- When a font pointer lies in RAM or in ROM (R42, R48). -/
theorem fontRegion_ne_none (ps : Params) (p : Pointer) :
    fontRegion ps p ≠ none ↔
      p.toNat + 2048 ≤ ps.ramSize ∨ (ps.romBase ≤ p.toNat ∧ p.toNat - ps.romBase + 2048 ≤ ps.romSize) := by
  rw [ne_eq, fontRegion_eq_none]
  omega

/-- Settles O22: the pointer is the candidate, which the command commits in one of its two cases and not in the other. -/
theorem mapBufferCommitsIffItFits : Obligations.MapBufferCommitsIffItFits := by
  intro s
  refine ⟨decodeInvertsEncode .tMapBuffer rfl, candidate s.t, candidate_toNat s.t, ?_⟩
  rw [exec_tMapBuffer]
  rcases s.t.mapBuffer_cases s.params with ⟨hfits, hmap⟩ | ⟨hmisfit, hmap⟩ <;> rw [hmap]
  · exact ⟨fun _ => rfl, fun hmisfit => absurd hfits hmisfit.not_ge⟩
  · exact ⟨fun hfits => absurd hfits hmisfit.not_ge, fun _ => rfl⟩

/-- Settles O23, as O22: the command commits the candidate when it lies in a region, and the two conditions of the
statement say when it lies in one and when in none. -/
theorem mapFontCommitsIffItFits : Obligations.MapFontCommitsIffItFits := by
  intro s
  refine ⟨decodeInvertsEncode .tMapFont rfl, candidate s.t, candidate_toNat s.t, ?_⟩
  rw [exec_tMapFont, ← fontRegion_ne_none, ← fontRegion_eq_none]
  rcases s.t.mapFont_cases s.params with ⟨hregion, hmap⟩ | ⟨hnone, hmap⟩ <;> rw [hmap]
  · exact ⟨fun _ => rfl, fun hnone => absurd hnone hregion⟩
  · exact ⟨fun hregion => absurd hnone hregion, fun _ => rfl⟩

/-- Settles O24: the word is the encoding of the operation, which writes only the message of the latch. -/
theorem tdaSetIntCopiesA : Obligations.TdaSetIntCopiesA :=
  fun _ => ⟨decodeInvertsEncode .tSetInt rfl, rfl⟩

/-- Settles O25: by definition, both operations write only their own last result, and the line is constant. -/
theorem noDeviceIsASyncDevice : Obligations.NoDeviceIsASyncDevice :=
  fun _ => ⟨rfl, rfl, rfl, rfl⟩

end Sys2Proof.Machine
end

section
/-! The frame as an operation (R111, R118 to R122): with usable pointers it shows pixels and advances the blink counter,
otherwise it is refused. -/

namespace Sys2Proof.Machine

/-- A pointer has no font source exactly when it is not zero and lies in no region (R46, R111 (c)). -/
theorem fontSource_eq_none {ps : Params} {p : Pointer} :
    fontSource ps p = none ↔ p ≠ 0#32 ∧ fontRegion ps p = none := by
  rcases fontSource_cases ps p with ⟨hp, h⟩ | ⟨-, hram, h⟩ | ⟨-, -, hbase, hrom, h⟩ | ⟨hp, hnone, h⟩ <;> rw [h]
  · simp [hp]
  · simp [fontRegion_eq_none, hram.not_gt]
  · simp [fontRegion_eq_none, hbase.not_gt, hrom.not_gt]
  · simp [hp, hnone]

/-- The screen of a `Capture` that is not refused is taken with the source of its font pointer (R110). -/
theorem capture_eq_ok {s : State} {scr : Screen} (hcapture : capture s = .ok scr) :
    ∃ src, fontSource s.params s.t.fontPtr = some src ∧ scr = captureScreen s src := by
  rcases capture_cases s with ⟨-, h⟩ | ⟨-, -, h⟩ | ⟨-, -, -, h⟩ | ⟨src, -, -, hsrc, h⟩ <;>
    cases h.symm.trans hcapture
  exact ⟨src, hsrc, rfl⟩

/-- `Capture` is not refused exactly when the pointers are usable (R111). -/
theorem frameUsable_iff_capture {s : State} : FrameUsable s ↔ ∃ scr, capture s = .ok scr := by
  have hfont : (s.t.fontPtr = 0#32 ∨ fontRegion s.params s.t.fontPtr ≠ none)
      ↔ fontSource s.params s.t.fontPtr ≠ none := by
    rw [ne_eq, ne_eq, fontSource_eq_none]
    tauto
  rw [FrameUsable, hfont]
  rcases capture_cases s with
    ⟨hzero, h⟩ | ⟨-, hunfit, h⟩ | ⟨-, -, hnone, h⟩ | ⟨src, hmapped, hfits, hsrc, h⟩ <;> rw [h]
  · simp [hzero]
  · simp [hunfit.not_ge]
  · simp [hnone]
  · simp [hmapped, hfits, hsrc]

/-- The state after a frame that shows these pixels: the blink counter is one further (R119). -/
def State.framed (s : State) (px : List Pixel) : State :=
  (s.setTda s.t.rendered).setTOut { s.tOut with frame := some px }

@[simp] theorem State.framed_t (s : State) (px : List Pixel) :
    (s.framed px).t = { s.t with blinkCtr := s.t.blinkCtr + 1#4 } := rfl
@[simp] theorem State.framed_frame (s : State) (px : List Pixel) : (s.framed px).tOut.frame = some px := rfl

/-- Both frames are refused where `Capture` is (R122). -/
theorem exec_frames_of_capture_error {s : State} {why : Refusal} (h : capture s = .error why) :
    exec .tFrame s = .refused why ∧ exec .tFrameSwap s = .refused why := by
  change execTFrame s = _ ∧ execTFrameSwap s = _
  simp only [execTFrame, execTFrameSwap, h, and_self]

/-- `FRAME` is `Capture` then `Render`, `FRAME.SWAP` is `Capture` then `RenderSwapped` (R122). -/
theorem exec_frames_of_capture_ok {s : State} {scr : Screen} (h : capture s = .ok scr) :
    exec .tFrame s = .next (s.framed (renderPixels s.params scr s.t.blinkCtr))
      ∧ exec .tFrameSwap s = .next (s.framed (renderSwappedPixels s.params scr s.t.blinkCtr)) := by
  change execTFrame s = _ ∧ execTFrameSwap s = _
  simp only [execTFrame, execTFrameSwap, h, State.framed, and_self]

/-- A `FRAME` that completes has a screen, and shows the pixels of its `Render`. -/
theorem exec_tFrame_eq_next {s t : State} (hnext : exec .tFrame s = .next t) :
    ∃ scr, capture s = .ok scr ∧ t = s.framed (renderPixels s.params scr s.t.blinkCtr) := by
  rcases execTFrame_cases s with ⟨why, -, h⟩ | ⟨scr, hcapture, h⟩ <;> cases h.symm.trans hnext
  exact ⟨scr, hcapture, rfl⟩

/-- The blink counter counts modulo 16 (R119). -/
theorem blinkCtr_succ_toNat (ctr : BitVec 4) : (ctr + 1#4).toNat = (ctr.toNat + 1) % 16 :=
  BitVec.toNat_add ctr 1#4

/-- Settles O26: each case of R111 gives its own refusal, and excludes the other cases. -/
theorem frameRefusedWithUnusablePointers : Obligations.FrameRefusedWithUnusablePointers := by
  intro s
  rcases capture_cases s with
    ⟨hzero, h⟩ | ⟨hmapped, hunfit, h⟩ | ⟨hmapped, hfits, -, h⟩ | ⟨src, hmapped, hfits, hsrc, h⟩
  · exact ⟨fun _ => ⟨h, exec_frames_of_capture_error h⟩, fun hmapped => absurd hzero hmapped,
      fun hmapped => absurd hzero hmapped⟩
  · exact ⟨fun hzero => absurd hzero hmapped, fun _ _ => ⟨h, exec_frames_of_capture_error h⟩,
      fun _ hfits => absurd hfits hunfit.not_ge⟩
  · exact ⟨fun hzero => absurd hzero hmapped, fun _ hunfit => absurd hfits hunfit.not_ge,
      fun _ _ _ _ _ => ⟨h, exec_frames_of_capture_error h⟩⟩
  · refine ⟨fun hzero => absurd hzero hmapped, fun _ hunfit => absurd hfits hunfit.not_ge, ?_⟩
    intro _ _ huser hram hrom
    have hnone := fontSource_eq_none.2 ⟨huser, (fontRegion_eq_none s.params s.t.fontPtr).2 ⟨hram, hrom⟩⟩
    cases hsrc.symm.trans hnone

/-- Settles O27: the frames follow `Capture`, which succeeds when the pointers are usable. -/
theorem frameCompletesWithUsablePointers : Obligations.FrameCompletesWithUsablePointers := by
  refine ⟨decodeInvertsEncode .tFrame rfl, decodeInvertsEncode .tFrameSwap rfl, ?_⟩
  intro s
  refine ⟨fun why => exec_frames_of_capture_error, ?_⟩
  intro hmapped hfits hfont
  rw [← fontRegion_ne_none] at hfont
  obtain ⟨scr, hcapture⟩ := frameUsable_iff_capture.1 ⟨hmapped, hfits, hfont⟩
  exact ⟨scr, s.t.blinkCtr + 1#4, hcapture, blinkCtr_succ_toNat _, exec_frames_of_capture_ok hcapture⟩

/-- A frame with usable pointers completes, direct or swapped. -/
theorem exec_frame_of_usable {i : Instr} {s : State} (hi : i = .tFrame ∨ i = .tFrameSwap) (hs : FrameUsable s) :
    ∃ px, exec i s = .next (s.framed px) := by
  obtain ⟨scr, hcapture⟩ := frameUsable_iff_capture.1 hs
  obtain ⟨hframe, hswap⟩ := exec_frames_of_capture_ok hcapture
  rcases hi with rfl | rfl
  · exact ⟨_, hframe⟩
  · exact ⟨_, hswap⟩

/-- A frame leaves the pointers and the parameters, so a further frame is possible. -/
theorem frameUsable_framed {s : State} {px : List Pixel} : FrameUsable (s.framed px) ↔ FrameUsable s :=
  Iff.rfl

/-- Settles O31, by induction on the frames: each adds one, and leaves the pointers usable for the next. -/
theorem blinkCounterCountsFrames : Obligations.BlinkCounterCountsFrames := by
  intro s frames hs hframes
  induction frames generalizing s with
  | nil => exact ⟨s, s.t.blinkCtr, rfl, (Nat.mod_eq_of_lt s.t.blinkCtr.isLt).symm, rfl⟩
  | cons i frames ih =>
    obtain ⟨hi, hrest⟩ := List.forall_mem_cons.1 hframes
    obtain ⟨px, hexec⟩ := exec_frame_of_usable hi hs
    obtain ⟨t, ctr, hrun, hctr, ht⟩ := ih (s.framed px) (frameUsable_framed.2 hs) hrest
    refine ⟨t, ctr, (runInstrs_cons_next hexec).trans hrun, ?_, ht⟩
    rw [hctr, State.framed_t, blinkCtr_succ_toNat, List.length_cons]
    omega

end Sys2Proof.Machine
end

section
/-! The screen of a `Capture` (R110): what its cells and its font bytes are, and what they are read from (R121). -/

namespace Sys2Proof.Machine

/-- A byte of the built-in font (R25). -/
theorem fontRomByte_eq_getElem? (ps : Params) {k : Nat} (hk : k < 2048) :
    some (fontRomByte ps k) = ps.fontRom.toList[k]? := by
  simp [fontRomByte, List.getD_eq_getElem?_getD, hk]

/-- The font bytes of a frame by its font pointer: zero, in RAM, or in ROM (R46). -/
theorem captureFontByte_eq {s : State} {src : FontSource} (hsrc : fontSource s.params s.t.fontPtr = some src)
    {k : Nat} (hk : k < 2048) :
    (s.t.fontPtr = 0#32 → some (captureFontByte s src k) = s.params.fontRom.toList[k]?)
    ∧ (s.t.fontPtr ≠ 0#32 → s.t.fontPtr.toNat + 2048 ≤ s.params.ramSize →
        captureFontByte s src k = s.readRam (s.t.fontPtr.toNat + k))
    ∧ (s.t.fontPtr ≠ 0#32 → s.params.ramSize < s.t.fontPtr.toNat + 2048 →
        captureFontByte s src k = s.readRom (s.t.fontPtr.toNat - s.params.romBase + k)) := by
  rcases fontSource_cases s.params s.t.fontPtr with
    ⟨hzero, h⟩ | ⟨huser, hram, h⟩ | ⟨huser, hrom, -, -, h⟩ | ⟨-, -, h⟩ <;> cases h.symm.trans hsrc
  · exact ⟨fun _ => fontRomByte_eq_getElem? s.params hk, fun huser => absurd hzero huser,
      fun huser => absurd hzero huser⟩
  · exact ⟨fun hzero => absurd hzero huser, fun _ _ => rfl, fun _ hrom => absurd hram hrom.not_ge⟩
  · exact ⟨fun hzero => absurd hzero huser, fun _ hram => absurd hram hrom.not_ge, fun _ _ => rfl⟩

/-- Settles O28: the cells and font bytes of the captured screen, and the fields of `T.d` and `T.e`. -/
theorem captureReadsTextFontAndCursor : Obligations.CaptureReadsTextFontAndCursor := by
  intro s scr hcapture
  obtain ⟨src, hsrc, rfl⟩ := capture_eq_ok hcapture
  refine ⟨fun r c hr hc => ?cells, fun k hk => ?font, decide_eq_true_iff, rfl, rfl, cursor_fields_toNat s.t.d s.t.e⟩
  case cells => rw [captureScreen_cell s src hr hc, captureCell, le16_toNat]
  case font =>
    rw [captureScreen_fontByte s src hk]
    exact captureFontByte_eq hsrc hk

/-- Two states that agree on all a frame reads: the pointers, the cursor state, the counter, the parameters, ROM, and
the RAM bytes of the text buffer and of a font in RAM (R110, R121). -/
structure FrameSourcesAgree (s s' : State) : Prop where
  params : s'.params = s.params
  rom : ∀ a, s'.readRom a = s.readRom a
  bufferPtr : s'.t.bufferPtr = s.t.bufferPtr
  fontPtr : s'.t.fontPtr = s.t.fontPtr
  cursor : s'.t.cursor = s.t.cursor
  blink : s'.t.blink = s.t.blink
  d : s'.t.d = s.t.d
  e : s'.t.e = s.t.e
  blinkCtr : s'.t.blinkCtr = s.t.blinkCtr
  text : ∀ a, s.t.bufferPtr.toNat ≤ a → a < s.t.bufferPtr.toNat + 2400 → s'.readRam a = s.readRam a
  font : s.t.fontPtr ≠ 0#32 → s.t.fontPtr.toNat + 2048 ≤ s.params.ramSize →
    ∀ a, s.t.fontPtr.toNat ≤ a → a < s.t.fontPtr.toNat + 2048 → s'.readRam a = s.readRam a

section
variable {s s' : State} (hagree : FrameSourcesAgree s s')
include hagree

/-- A cell lies in the text buffer's 2400 bytes. -/
theorem FrameSourcesAgree.captureCell_eq {r c : Nat} (hr : r < 30) (hc : c < 40) :
    captureCell s' r c = captureCell s r c := by
  rw [captureCell, captureCell, hagree.bufferPtr, hagree.text _ (by omega) (by omega),
    hagree.text _ (by omega) (by omega)]

/-- A font byte comes from `FONT_ROM`, from ROM, or from the font's 2048 bytes of RAM. -/
theorem FrameSourcesAgree.captureFontByte_eq {src : FontSource} (hsrc : fontSource s.params s.t.fontPtr = some src)
    {k : Nat} (hk : k < 2048) : captureFontByte s' src k = captureFontByte s src k := by
  rcases fontSource_cases s.params s.t.fontPtr with
    ⟨-, h⟩ | ⟨huser, hram, h⟩ | ⟨-, -, -, -, h⟩ | ⟨-, -, h⟩ <;> cases h.symm.trans hsrc
  · exact congrArg (fontRomByte · k) hagree.params
  · exact hagree.font huser hram _ (Nat.le_add_right _ _) (Nat.add_lt_add_left hk _)
  · exact hagree.rom _

theorem FrameSourcesAgree.captureScreen_eq {src : FontSource} (hsrc : fontSource s.params s.t.fontPtr = some src) :
    captureScreen s' src = captureScreen s src := by
  have hcells : (captureScreen s' src).cells = (captureScreen s src).cells :=
    List.map_congr_left fun r hr => List.map_congr_left fun c hc =>
      hagree.captureCell_eq (by simpa using hr) (by simpa using hc)
  have hfont : (captureScreen s' src).font = (captureScreen s src).font :=
    List.map_congr_left fun k hk => hagree.captureFontByte_eq hsrc (by simpa [fontBufferSize] using hk)
  simp only [captureScreen] at hcells hfont
  simp only [captureScreen, hcells, hfont, hagree.fontPtr, hagree.cursor, hagree.blink, hagree.d, hagree.e]

/-- Two such states have the same screen: the frame is usable in both, with the same font source. -/
theorem FrameSourcesAgree.capture_eq_ok {scr : Screen} (hcapture : capture s = .ok scr) : capture s' = .ok scr := by
  have hs' : FrameUsable s' := by
    rw [FrameUsable, hagree.bufferPtr, hagree.fontPtr, hagree.params]
    exact frameUsable_iff_capture.2 ⟨scr, hcapture⟩
  obtain ⟨src, hsrc, rfl⟩ := Machine.capture_eq_ok hcapture
  obtain ⟨scr', hcapture'⟩ := frameUsable_iff_capture.1 hs'
  obtain ⟨src', hsrc', rfl⟩ := Machine.capture_eq_ok hcapture'
  rw [hagree.params, hagree.fontPtr, hsrc, Option.some.injEq] at hsrc'
  rw [hcapture', ← hsrc', hagree.captureScreen_eq hsrc]

end

/-- Settles O32: the two states have one screen, and `Render` takes no more than it, the palette and the counter. -/
theorem frameSeesOnlyItsWindows : Obligations.FrameSeesOnlyItsWindows := by
  intro s s' t hparams hrom hbuffer hfont hcursor hblink hd he hctr htextBytes hfontBytes hnext
  have hagree : FrameSourcesAgree s s' :=
    ⟨hparams, hrom, hbuffer, hfont, hcursor, hblink, hd, he, hctr, htextBytes, hfontBytes⟩
  obtain ⟨scr, hcapture, rfl⟩ := exec_tFrame_eq_next hnext
  obtain ⟨hframe, -⟩ := exec_frames_of_capture_ok (hagree.capture_eq_ok hcapture)
  rw [hparams, hctr] at hframe
  exact ⟨_, hframe, rfl⟩

end Sys2Proof.Machine
end

section
/-! The pixels of a frame: text pass, cursor overlay (R113 to R118), and the exchange of lanes (R120). -/

namespace Sys2Proof.Machine

/-- When the cursor is visible (R116). -/
theorem cursorVisible_iff (scr : Screen) :
    cursorVisible scr = true ↔ scr.enabled = true ∧ scr.scanlineStart.toNat ≤ scr.scanlineEnd.toNat
      ∧ scr.row.toNat < 30 ∧ scr.col.toNat < 40 := by
  simp only [cursorVisible, Bool.and_eq_true, decide_eq_true_eq, BitVec.le_def, and_assoc]

/-- When the cursor's phase is on (R118). -/
theorem phaseOn_iff (scr : Screen) (ctr : BitVec 4) :
    phaseOn scr ctr = true ↔ scr.blinkEnabled = false ∨ ctr.toNat < 8 := by
  simp only [phaseOn, Bool.or_eq_true, Bool.not_eq_true', decide_eq_true_eq]

/-- Which pixel rows the cursor's rectangle has (R117). -/
theorem inCursor_iff (scr : Screen) (r c y : Nat) :
    inCursor scr r c y = true ↔ r = scr.row.toNat ∧ c = scr.col.toNat
      ∧ scr.scanlineStart.toNat ≤ y ∧ y ≤ scr.scanlineEnd.toNat := by
  simp only [inCursor, Bool.and_eq_true, decide_eq_true_eq, and_assoc]

/-- The text pass chooses between the cell's two colours by one bit of its glyph (R113, R114). -/
theorem textPixel_eq_getElem? (ps : Params) (scr : Screen) (r c y x : Nat) :
    some (textPixel ps scr r c y x) =
      ps.palette.toList[
        if (scr.fontByte (8 * ((scr.cell r c).toNat % 2 ^ 8) + y)).toNat.testBit (7 - x) = true
        then (scr.cell r c).toNat / 2 ^ 8 % 16
        else (scr.cell r c).toNat / 2 ^ 12]? := by
  obtain ⟨hglyph, hfg, hbg⟩ := cell_fields_toNat (scr.cell r c)
  rw [← hglyph, ← hfg, ← hbg, textPixel, BitVec.testBit_toNat]
  split_ifs <;> exact colour_eq_getElem? ps _

/-- Settles O29: the overlay's condition is that of the statement, and outside it the pixel is the text pass's. -/
theorem renderDrawsCellsAndCursor : Obligations.RenderDrawsCellsAndCursor := by
  refine ⟨fun ps scr ctr => ⟨renderPixels_length ps scr ctr, ?pixels⟩, ?frame⟩
  case pixels =>
    intro r c y x hr hc hy hx
    rw [renderPixels_at ps scr ctr hr hc hy hx]
    simp only [framePixel, Bool.and_eq_true, cursorVisible_iff, phaseOn_iff, inCursor_iff, and_assoc]
    split
    · exact colour_eq_getElem? ps scr.color
    · exact textPixel_eq_getElem? ps scr r c y x
  case frame =>
    intro s t scr hcapture hnext
    obtain ⟨hframe, -⟩ := exec_frames_of_capture_ok hcapture
    cases hframe.symm.trans hnext
    exact State.framed_frame s _

/-- The four byte lanes of a pixel after the exchange (R120). -/
theorem swapLanes_lanes (p : Pixel) :
    (swapLanes p).extractLsb' 0 8 = p.extractLsb' 16 8 ∧ (swapLanes p).extractLsb' 8 8 = p.extractLsb' 8 8
      ∧ (swapLanes p).extractLsb' 16 8 = p.extractLsb' 0 8
      ∧ (swapLanes p).extractLsb' 24 8 = p.extractLsb' 24 8 := by
  refine ⟨?_, ?_, ?_, ?_⟩ <;> refine BitVec.eq_of_getLsbD_eq fun i hi => ?_ <;>
    rw [BitVec.getLsbD_extractLsb', BitVec.getLsbD_extractLsb', swapLanes_getLsbD]
  · rw [if_pos (by omega), Nat.add_comm, Nat.zero_add]
  · rw [if_neg (by omega), if_neg (by omega)]
  · rw [if_neg (by omega), if_pos (by omega), Nat.add_sub_cancel_left, Nat.zero_add]
  · rw [if_neg (by omega), if_neg (by omega)]

/-- Exchanging twice restores the pixel: bits 7:0 and 23:16 trade places twice. -/
theorem swapLanes_swapLanes (p : Pixel) : swapLanes (swapLanes p) = p := by
  refine BitVec.eq_of_getLsbD_eq fun i hi => ?_
  rw [swapLanes_getLsbD, swapLanes_getLsbD, swapLanes_getLsbD, swapLanes_getLsbD]
  by_cases hred : i < 8
  · rw [if_pos hred, if_neg (by omega), if_pos (by omega), Nat.add_sub_cancel]
  by_cases hblue : 16 ≤ i ∧ i < 24
  · rw [if_neg hred, if_pos hblue, if_pos (by omega), Nat.sub_add_cancel hblue.1]
  · rw [if_neg hred, if_neg hblue, if_neg hred, if_neg hblue]

/-- Settles O30: both frames render one screen, and the swapped one maps the exchange over its pixels. -/
theorem swappedFrameExchangesRedAndBlue : Obligations.SwappedFrameExchangesRedAndBlue := by
  refine ⟨?_, swapLanes_swapLanes⟩
  intro s t t' hnext hnextSwap
  obtain ⟨scr, hcapture, rfl⟩ := exec_tFrame_eq_next hnext
  obtain ⟨-, hswap⟩ := exec_frames_of_capture_ok hcapture
  cases hswap.symm.trans hnextSwap
  refine ⟨rfl, rfl, _, _, State.framed_frame s _, State.framed_frame s _, List.length_map _, ?_⟩
  intro n p hp
  refine ⟨swapLanes p, ?_, swapLanes_lanes p⟩
  rw [renderSwappedPixels, List.getElem?_map, hp, Option.map_some]

end Sys2Proof.Machine
end

section
/-! How a property of a snapshot reaches a field (R130, R133): by its name and its type, and never by its place. -/

namespace Sys2Proof.Machine

theorem nodup_of_wellFormed {snap : Snapshot} (h : snap.wellFormed = true) : (snap.props.map (·.1)).Nodup :=
  of_decide_eq_true h

/-- R133 for a field of any type: a property that is found is applied, a missing one leaves the field as it was. What
the lookup finds (`Listed`) is said by `intProp_eq_some`, `boolProp_eq_some` and `rawProp_eq_some`. -/
theorem getD_map_lookup {α β : Type} {lookup : Option α} {Listed : α → Prop} (h : ∀ v, lookup = some v ↔ Listed v)
    (toField : α → β) (old : β) :
    (∀ v, Listed v → (lookup.map toField).getD old = toField v)
      ∧ ((∀ v, ¬ Listed v) → (lookup.map toField).getD old = old) := by
  constructor
  · intro v hv
    rw [(h v).2 hv, Option.map_some, Option.getD_some]
  · intro hnone
    have habsent : lookup = none := Option.eq_none_iff_forall_ne_some.2 fun v hv => hnone v ((h v).1 hv)
    rw [habsent, Option.map_none, Option.getD_none]

section
variable {snap : Snapshot} (hnodup : (snap.props.map (·.1)).Nodup)
include hnodup

/-- An `INT` property is truncated to the width of its field (R134, R135). -/
theorem restored_int {w : Nat} (name : String) (old : BitVec w) :
    (∀ v : Nat, (name, .int v) ∈ snap.props → (((intProp snap name).map (BitVec.ofNat w)).getD old).toNat = v % 2 ^ w)
      ∧ ((∀ v : Nat, (name, .int v) ∉ snap.props) → ((intProp snap name).map (BitVec.ofNat w)).getD old = old) := by
  obtain ⟨hlisted, habsent⟩ := getD_map_lookup (intProp_eq_some hnodup name) (BitVec.ofNat w) old
  refine ⟨fun v hv => ?_, habsent⟩
  rw [hlisted v hv, BitVec.toNat_ofNat]

/-- A `BOOL` property is its field's new value (R134, R135). -/
theorem restored_bool (name : String) (old : Bool) :
    (∀ f : Bool, (name, .bool f) ∈ snap.props → (boolProp snap name).getD old = f)
      ∧ ((∀ f : Bool, (name, .bool f) ∉ snap.props) → (boolProp snap name).getD old = old) := by
  simpa only [Option.map_id_fun, id_eq] using getD_map_lookup (boolProp_eq_some hnodup name) id old

/-- The latch of either device after `SetState`, from its two properties (R134, R135). -/
theorem Latch.restore_byName (msgName pendingName : String) (l : Latch) :
    (∀ v : Nat, (msgName, .int v) ∈ snap.props → (l.restore snap msgName pendingName).msg.toNat = v % 2 ^ 16)
      ∧ ((∀ v : Nat, (msgName, .int v) ∉ snap.props) → (l.restore snap msgName pendingName).msg = l.msg)
      ∧ (∀ f : Bool, (pendingName, .bool f) ∈ snap.props → (l.restore snap msgName pendingName).pending = f)
      ∧ ((∀ f : Bool, (pendingName, .bool f) ∉ snap.props) →
          (l.restore snap msgName pendingName).pending = l.pending) := by
  obtain ⟨hmsg, hnoMsg⟩ := restored_int hnodup msgName l.msg
  exact ⟨hmsg, hnoMsg, restored_bool hnodup pendingName l.pending⟩

end

/-- Word `i` of a restored queue: the words the blob has too many of are skipped, four bytes each (R134). -/
theorem restoredQueue_getElem? {bsize i : Nat} {bytes : List Byte} {w : Event}
    (h : (restoredQueue bsize bytes)[i]? = some w) :
    ∃ b0 b1 b2 b3 : Byte,
      bytes[4 * (bytes.length / 4 - min (bytes.length / 4) bsize + i)]? = some b0
      ∧ bytes[4 * (bytes.length / 4 - min (bytes.length / 4) bsize + i) + 1]? = some b1
      ∧ bytes[4 * (bytes.length / 4 - min (bytes.length / 4) bsize + i) + 2]? = some b2
      ∧ bytes[4 * (bytes.length / 4 - min (bytes.length / 4) bsize + i) + 3]? = some b3
      ∧ w.toNat = b0.toNat + 2 ^ 8 * b1.toNat + 2 ^ 16 * b2.toNat + 2 ^ 24 * b3.toNat := by
  rw [restoredQueue, List.getElem?_drop, blobWords_length] at h
  obtain ⟨b0, b1, b2, b3, h0, h1, h2, h3, rfl⟩ := blobWords_getElem? h
  exact ⟨b0, b1, b2, b3, h0, h1, h2, h3, le32_toNat b0 b1 b2 b3⟩

end Sys2Proof.Machine
end

section
/-! `SetState` on the whole machine: the restore of the registers (R136), then the properties by name (R134, R135). -/

namespace Sys2Proof.Machine

theorem exec_kSet_of_short {snap : Snapshot} (h : snap.regs.length < 5) (s : State) :
    exec (.kSet snap) s = .next (s.setKOut { s.kOut with snapOk := some false }) := by
  have hfail : s.k.restore s.params snap = none := by
    rcases Keyboard.restore_cases s.params snap s.k with ⟨-, hfail⟩ | ⟨a, b, c, d, e, more, hregs, -⟩
    · exact hfail
    · simp only [hregs, List.length_cons] at h
      omega
  rcases execKSet_cases snap s with ⟨-, hset⟩ | ⟨k, hk, -⟩
  · exact hset
  · cases hfail.symm.trans hk

theorem exec_tSet_of_short {snap : Snapshot} (h : snap.regs.length < 5) (s : State) :
    exec (.tSet snap) s = .next (s.setTOut { s.tOut with snapOk := some false }) := by
  have hfail : s.t.restore s.params snap = none := by
    rcases Tda.restore_cases s.params snap s.t with ⟨-, hfail⟩ | ⟨a, b, c, d, e, more, hregs, -⟩
    · exact hfail
    · simp only [hregs, List.length_cons] at h
      omega
  rcases execTSet_cases snap s with ⟨-, hset⟩ | ⟨t, ht, -⟩
  · exact hset
  · cases hfail.symm.trans ht

theorem exec_kSet_of_restore {snap : Snapshot} {s : State} {k : Keyboard} (h : s.k.restore s.params snap = some k) :
    exec (.kSet snap) s = .next ((s.setKbd k).setKOut { s.kOut with snapOk := some true }) := by
  rcases execKSet_cases snap s with ⟨hfail, -⟩ | ⟨k', hk', hset⟩
  · cases hfail.symm.trans h
  · cases hk'.symm.trans h
    exact hset

theorem exec_tSet_of_restore {snap : Snapshot} {s : State} {t : Tda} (h : s.t.restore s.params snap = some t) :
    exec (.tSet snap) s = .next ((s.setTda t).setTOut { s.tOut with snapOk := some true }) := by
  rcases execTSet_cases snap s with ⟨hfail, -⟩ | ⟨t', ht', hset⟩
  · cases hfail.symm.trans h
  · cases ht'.symm.trans h
    exact hset

/-- With five registers or more the keyboard is restored: registers by position (R136), the rest by name (R134). -/
theorem Keyboard.restore_of_le {snap : Snapshot} (h : 5 ≤ snap.regs.length) (ps : Params) (k : Keyboard) :
    ∃ k', k.restore ps snap = some k'
      ∧ (some k'.a = snap.regs[0]? ∧ some k'.b = snap.regs[1]? ∧ some k'.c = snap.regs[2]?)
      ∧ k'.q = ((rawProp snap ps.kbdProps.queue).map (restoredQueue ps.bsize)).getD k.q
      ∧ k'.latch = k.latch.restore snap ps.kbdProps.msg ps.kbdProps.pending := by
  rcases Keyboard.restore_cases ps snap k with ⟨hshort, -⟩ | ⟨a, b, c, d, e, more, hregs, hk⟩
  · exact absurd h hshort.not_ge
  · rw [hregs]
    exact ⟨_, hk, ⟨rfl, rfl, rfl⟩, rfl, rfl⟩

/-- With five registers or more the TDA is restored: registers by position (R136), the rest by name, each pointer into
its own field and without the fit test; the blink counter stays (R135). -/
theorem Tda.restore_of_le {snap : Snapshot} (h : 5 ≤ snap.regs.length) (ps : Params) (t : Tda) :
    ∃ t', t.restore ps snap = some t'
      ∧ (some t'.a = snap.regs[0]? ∧ some t'.b = snap.regs[1]? ∧ some t'.d = snap.regs[3]? ∧ some t'.e = snap.regs[4]?)
      ∧ t'.bufferPtr = ((intProp snap ps.tdaProps.bufferPtr).map (BitVec.ofNat 32)).getD t.bufferPtr
      ∧ t'.fontPtr = ((intProp snap ps.tdaProps.fontPtr).map (BitVec.ofNat 32)).getD t.fontPtr
      ∧ t'.cursor = (boolProp snap ps.tdaProps.cursor).getD t.cursor
      ∧ t'.blink = (boolProp snap ps.tdaProps.blink).getD t.blink
      ∧ t'.latch = t.latch.restore snap ps.tdaProps.msg ps.tdaProps.pending
      ∧ t'.blinkCtr = t.blinkCtr := by
  rcases Tda.restore_cases ps snap t with ⟨hshort, -⟩ | ⟨a, b, c, d, e, more, hregs, ht⟩
  · exact absurd h hshort.not_ge
  · rw [hregs]
    exact ⟨_, ht, ⟨rfl, rfl, rfl, rfl⟩, rfl, rfl, rfl, rfl, rfl, rfl⟩

/-- Settles O35: the length of the registers decides which branch `SetState` takes on either device. -/
theorem setStateFailsExactlyWhenShort : Obligations.SetStateFailsExactlyWhenShort := by
  intro s snap
  refine ⟨fun hshort => ⟨exec_kSet_of_short hshort s, exec_tSet_of_short hshort s⟩, fun hlen => ?_⟩
  obtain ⟨k, hk, ⟨ha, hb, hc⟩, -⟩ := Keyboard.restore_of_le hlen s.params s.k
  obtain ⟨t, ht, hregs, -⟩ := Tda.restore_of_le hlen s.params s.t
  exact ⟨_, _, exec_kSet_of_restore hk, rfl, ha, hb, hc, exec_tSet_of_restore ht, rfl, hregs⟩

/-- Settles O36: each field is what the lookup of its property gives, and the queue's words are those of the blob. -/
theorem kbdSetStateRestoresByName : Obligations.KbdSetStateRestoresByName := by
  intro s snap hwf hlen
  have hnodup := nodup_of_wellFormed hwf
  obtain ⟨k, hk, -, hq, hlatch⟩ := Keyboard.restore_of_le hlen s.params s.k
  obtain ⟨hmsg, hnoMsg, hpending, hnoPending⟩ :=
    Latch.restore_byName hnodup s.params.kbdProps.msg s.params.kbdProps.pending s.k.latch
  obtain ⟨hqueue, hnoQueue⟩ :=
    getD_map_lookup (rawProp_eq_some hnodup s.params.kbdProps.queue) (restoredQueue s.params.bsize) s.k.q
  rw [← hlatch] at hmsg hnoMsg hpending hnoPending
  rw [← hq] at hqueue hnoQueue
  refine ⟨_, exec_kSet_of_restore hk, rfl, hmsg, hnoMsg, hpending, hnoPending, fun bytes hbytes => ?_, hnoQueue⟩
  rw [State.setKOut_k, State.setKbd_k, hqueue bytes hbytes]
  exact ⟨restoredQueue_length _ bytes, fun i w hw => restoredQueue_getElem? hw⟩

/-- Settles O37: each field is what the lookup of its property gives. -/
theorem tdaSetStateRestoresByName : Obligations.TdaSetStateRestoresByName := by
  intro s snap hwf hlen
  have hnodup := nodup_of_wellFormed hwf
  obtain ⟨t, ht, -, hbufferPtr, hfontPtr, hcursor, hblink, hlatch, hblinkCtr⟩ := Tda.restore_of_le hlen s.params s.t
  obtain ⟨hmsg, hnoMsg, hpending, hnoPending⟩ :=
    Latch.restore_byName hnodup s.params.tdaProps.msg s.params.tdaProps.pending s.t.latch
  obtain ⟨hcursorOn, hnoCursor⟩ := restored_bool hnodup s.params.tdaProps.cursor s.t.cursor
  obtain ⟨hblinkOn, hnoBlink⟩ := restored_bool hnodup s.params.tdaProps.blink s.t.blink
  obtain ⟨hbuffer, hnoBuffer⟩ := restored_int hnodup s.params.tdaProps.bufferPtr s.t.bufferPtr
  obtain ⟨hfont, hnoFont⟩ := restored_int hnodup s.params.tdaProps.fontPtr s.t.fontPtr
  rw [← hlatch] at hmsg hnoMsg hpending hnoPending
  rw [← hcursor] at hcursorOn hnoCursor
  rw [← hblink] at hblinkOn hnoBlink
  rw [← hbufferPtr] at hbuffer hnoBuffer
  rw [← hfontPtr] at hfont hnoFont
  exact ⟨_, exec_tSet_of_restore ht, rfl, hmsg, hnoMsg, hpending, hnoPending, hcursorOn, hnoCursor, hblinkOn, hnoBlink,
    hbuffer, hnoBuffer, hfont, hnoFont, hblinkCtr⟩

end Sys2Proof.Machine
end

section
/-! The order of a snapshot's properties (R130): `SetState` sees them through the lookup by name alone. -/

namespace Sys2Proof.Machine

/-- Unique names make the lookup a matter of membership, and a permutation keeps the members. -/
theorem propOf_perm {ps ps' : List (String × PropValue)} (hnodup : (ps.map (·.1)).Nodup) (hperm : ps.Perm ps') :
    propOf ps' = propOf ps := by
  have hnodup' : (ps'.map (·.1)).Nodup := (hperm.map _).nodup_iff.1 hnodup
  ext name v
  rw [propOf_eq_some hnodup', propOf_eq_some hnodup, hperm.mem_iff]

section
variable {snap snap' : Snapshot} (hregs : snap'.regs = snap.regs) (hprops : propOf snap'.props = propOf snap.props)
include hprops

theorem intProp_congr (name : String) : intProp snap' name = intProp snap name := by
  rw [intProp, intProp, hprops]

theorem boolProp_congr (name : String) : boolProp snap' name = boolProp snap name := by
  rw [boolProp, boolProp, hprops]

theorem rawProp_congr (name : String) : rawProp snap' name = rawProp snap name := by
  rw [rawProp, rawProp, hprops]

theorem Latch.restore_congr (msgName pendingName : String) (l : Latch) :
    l.restore snap' msgName pendingName = l.restore snap msgName pendingName := by
  simp only [Latch.restore, intProp_congr hprops, boolProp_congr hprops]

include hregs

theorem exec_kSet_congr (s : State) : exec (.kSet snap') s = exec (.kSet snap) s := by
  have hrestore : s.k.restore s.params snap' = s.k.restore s.params snap := by
    simp only [Keyboard.restore, hregs, rawProp_congr hprops, Latch.restore_congr hprops]
  show execKSet snap' s = execKSet snap s
  rw [execKSet, execKSet, hrestore]

theorem exec_tSet_congr (s : State) : exec (.tSet snap') s = exec (.tSet snap) s := by
  have hrestore : s.t.restore s.params snap' = s.t.restore s.params snap := by
    simp only [Tda.restore, hregs, intProp_congr hprops, boolProp_congr hprops, Latch.restore_congr hprops]
  show execTSet snap' s = execTSet snap s
  rw [execTSet, execTSet, hrestore]

end

/-- Settles O39: the two snapshots give every name the same property. -/
theorem propertyOrderIsIrrelevant : Obligations.PropertyOrderIsIrrelevant := by
  intro s snap snap' hwf hregs hperm
  have hprops := propOf_perm (nodup_of_wellFormed hwf) hperm
  exact ⟨exec_kSet_congr hregs hprops s, exec_tSet_congr hregs hprops s⟩

end Sys2Proof.Machine
end

section
/-! `GetState` (R131, R132), and what its snapshot restores (R137). -/

namespace Sys2Proof.Machine

theorem exec_kGet (s : State) :
    exec .kGet s = .next (s.setKOut { s.kOut with snap := some (s.k.snapshot s.params.kbdProps) }) :=
  rfl

theorem exec_tGet (s : State) :
    exec .tGet s = .next (s.setTOut { s.tOut with snap := some (s.t.snapshot s.params.tdaProps) }) :=
  rfl

/-- What the TDA emits: a pointer only when it is not zero (R132). -/
theorem Tda.mem_snapshot_props {p : TdaProps} {t : Tda} {x : String × PropValue} :
    x ∈ (t.snapshot p).props ↔
      x = (p.msg, .int t.latch.msg.toNat) ∨ x = (p.pending, .bool t.latch.pending) ∨ x = (p.cursor, .bool t.cursor)
        ∨ x = (p.blink, .bool t.blink) ∨ (t.bufferPtr ≠ 0#32 ∧ x = (p.bufferPtr, .int t.bufferPtr.toNat))
        ∨ (t.fontPtr ≠ 0#32 ∧ x = (p.fontPtr, .int t.fontPtr.toNat)) := by
  simp only [Tda.snapshot, List.mem_append, List.mem_cons, List.mem_ite_nil_left, List.not_mem_nil, or_false, or_assoc,
    ne_eq]

/-- Settles O33: the blob is the queue's events one after another. -/
theorem kbdGetStateEmitsEverything : Obligations.KbdGetStateEmitsEverything := by
  intro s
  rw [exec_kGet, Keyboard.snapshot, queueBytes_eq_flatMap]
  rfl

/-- Settles O34: the snapshot's properties are those listed. -/
theorem tdaGetStateEmitsEverything : Obligations.TdaGetStateEmitsEverything :=
  fun s => ⟨_, exec_tGet s, rfl, fun _ => Tda.mem_snapshot_props⟩

/-- The names of the snapshot are all the keyboard's (R131), which are unique (R3). -/
theorem Keyboard.snapshot_nodup {p : KbdProps} (h : p.names.Nodup) (k : Keyboard) :
    ((k.snapshot p).props.map (·.1)).Nodup :=
  h

/-- A property that may be left out adds its name or none. -/
theorem names_ite_sublist (c : Prop) [Decidable c] (x : String × PropValue) :
    ((if c then [] else [x]).map (·.1)).Sublist [x.1] := by
  split
  · exact List.nil_sublist _
  · exact List.Sublist.refl _

/-- The names of the snapshot are some of the TDA's, in their order (R132), and so unique (R3). -/
theorem Tda.snapshot_nodup {p : TdaProps} (h : p.names.Nodup) (t : Tda) : ((t.snapshot p).props.map (·.1)).Nodup := by
  rw [Tda.snapshot, List.map_append, List.map_append]
  exact h.sublist (((List.Sublist.refl _).append (names_ite_sublist ..)).append (names_ite_sublist ..))

/-- With unique names, a pointer's name is emitted for that pointer alone (R132): of the other properties, the flags
are of another type, and the message and the other pointer have other names. -/
theorem Tda.snapshot_pointers {p : TdaProps} (h : p.names.Nodup) (t : Tda) :
    (∀ v : Nat, (p.bufferPtr, .int v) ∈ (t.snapshot p).props ↔ t.bufferPtr ≠ 0#32 ∧ v = t.bufferPtr.toNat)
      ∧ ∀ v : Nat, (p.fontPtr, .int v) ∈ (t.snapshot p).props ↔ t.fontPtr ≠ 0#32 ∧ v = t.fontPtr.toNat := by
  simp only [TdaProps.names, List.nodup_cons, List.mem_cons, List.not_mem_nil, not_or, or_false] at h
  obtain ⟨⟨-, -, -, hmsgBuffer, hmsgFont⟩, -, -, -, hbufferFont, -⟩ := h
  constructor <;> intro v
  · simp [Tda.mem_snapshot_props, Ne.symm hmsgBuffer, hbufferFont]
  · simp [Tda.mem_snapshot_props, Ne.symm hmsgFont, Ne.symm hbufferFont]

/-- A latch whose two properties a snapshot has comes back, whatever the latch was before (R137). -/
theorem Latch.restore_of_mem {snap : Snapshot} (hnodup : (snap.props.map (·.1)).Nodup) {msgName pendingName : String}
    {l : Latch} (hmsg : (msgName, .int l.msg.toNat) ∈ snap.props)
    (hpending : (pendingName, .bool l.pending) ∈ snap.props) (l₀ : Latch) : l₀.restore snap msgName pendingName = l := by
  obtain ⟨hmsgRestored, -, hpendingRestored, -⟩ := Latch.restore_byName hnodup msgName pendingName l₀
  have hmsgEq := BitVec.eq_of_toNat_eq ((hmsgRestored _ hmsg).trans (Nat.mod_eq_of_lt l.msg.isLt))
  have hpendingEq := hpendingRestored _ hpending
  exact congrArg₂ Latch.mk hpendingEq hmsgEq

/-- A pointer that is emitted exactly when it is not zero comes back over zero (R132, R137). -/
theorem restored_pointer {snap : Snapshot} (hnodup : (snap.props.map (·.1)).Nodup) {name : String} {ptr : Pointer}
    (hemitted : ∀ v : Nat, (name, .int v) ∈ snap.props ↔ ptr ≠ 0#32 ∧ v = ptr.toNat) :
    ((intProp snap name).map (BitVec.ofNat 32)).getD 0#32 = ptr := by
  obtain ⟨hlisted, habsent⟩ := restored_int hnodup name (0#32)
  by_cases hzero : ptr = 0#32
  · rw [habsent fun v hv => ((hemitted v).1 hv).1 hzero, hzero]
  · apply BitVec.eq_of_toNat_eq
    rw [hlisted ptr.toNat ((hemitted _).2 ⟨hzero, rfl⟩), Nat.mod_eq_of_lt ptr.isLt]

/-- The blob of a queue within its capacity restores it (R131, R134, R14). -/
theorem restoredQueue_queueBytes {bsize : Nat} {q : List Event} (h : q.length ≤ bsize) :
    restoredQueue bsize (queueBytes q) = q := by
  rw [restoredQueue, blobWords_queueBytes, Nat.min_eq_left h, Nat.sub_self, List.drop_zero]

/-- The keyboard emits every field, so its snapshot restores it over any keyboard (R131, R134, R137). -/
theorem Keyboard.restore_snapshot {ps : Params} {k : Keyboard} (hnames : ps.kbdProps.names.Nodup)
    (hqueue : k.q.length ≤ ps.bsize) (k₀ : Keyboard) : k₀.restore ps (k.snapshot ps.kbdProps) = some k := by
  have hnodup := Keyboard.snapshot_nodup hnames k
  have hraw : rawProp (k.snapshot ps.kbdProps) ps.kbdProps.queue = some (queueBytes k.q) :=
    (rawProp_eq_some hnodup _ _).2 (by simp [Keyboard.snapshot])
  have hlatch : k₀.latch.restore (k.snapshot ps.kbdProps) ps.kbdProps.msg ps.kbdProps.pending = k.latch :=
    Latch.restore_of_mem hnodup (by simp [Keyboard.snapshot]) (by simp [Keyboard.snapshot]) _
  show some _ = some k
  rw [hraw, hlatch, Option.map_some, Option.getD_some, restoredQueue_queueBytes hqueue]

/-- The TDA emits every field but zero pointers and the blink counter, so over a TDA whose pointers are zero its
snapshot restores all but the counter (R132, R135, R137). -/
theorem Tda.restore_snapshot {ps : Params} {t t₀ : Tda} (hnames : ps.tdaProps.names.Nodup)
    (hbuffer₀ : t₀.bufferPtr = 0#32) (hfont₀ : t₀.fontPtr = 0#32) :
    t₀.restore ps (t.snapshot ps.tdaProps) = some { t with blinkCtr := t₀.blinkCtr } := by
  have hnodup := Tda.snapshot_nodup hnames t
  have hlatch : t₀.latch.restore (t.snapshot ps.tdaProps) ps.tdaProps.msg ps.tdaProps.pending = t.latch :=
    Latch.restore_of_mem hnodup (by simp [Tda.mem_snapshot_props]) (by simp [Tda.mem_snapshot_props]) _
  have hcursor : boolProp (t.snapshot ps.tdaProps) ps.tdaProps.cursor = some t.cursor :=
    (boolProp_eq_some hnodup _ _).2 (by simp [Tda.mem_snapshot_props])
  have hblink : boolProp (t.snapshot ps.tdaProps) ps.tdaProps.blink = some t.blink :=
    (boolProp_eq_some hnodup _ _).2 (by simp [Tda.mem_snapshot_props])
  obtain ⟨hbufferEmitted, hfontEmitted⟩ := Tda.snapshot_pointers hnames t
  show some _ = some _
  rw [hlatch, hcursor, hblink, hbuffer₀, hfont₀, restored_pointer hnodup hbufferEmitted,
    restored_pointer hnodup hfontEmitted, Option.getD_some, Option.getD_some]

theorem exec_kReset (s : State) : exec .kReset s = .next (s.setKbd Keyboard.cleared) :=
  rfl

theorem exec_tReset (s : State) : exec .tReset s = .next (s.setTda Tda.cleared) :=
  rfl

/-- Settles O38: `Reset` zeroes the pointers and the counter, and `SetState` restores what `GetState` emitted. -/
theorem snapshotRoundTrips : Obligations.SnapshotRoundTrips := by
  rintro s hqueue ⟨-, hkbdNames, htdaNames⟩
  have hkbd : exec (.kSet (s.k.snapshot s.params.kbdProps)) (s.setKbd Keyboard.cleared) = _ :=
    exec_kSet_of_restore (Keyboard.restore_snapshot hkbdNames hqueue _)
  have htda : exec (.tSet (s.t.snapshot s.params.tdaProps)) (s.setTda Tda.cleared) = _ :=
    exec_tSet_of_restore (Tda.restore_snapshot htdaNames rfl rfl)
  constructor
  · exact ⟨_, _, _, exec_kGet s, rfl,
      runInstrs_cons_eq_next.2 ⟨_, exec_kReset s, runInstrs_cons_eq_next.2 ⟨_, hkbd, rfl⟩⟩, rfl, rfl⟩
  · exact ⟨_, _, _, exec_tGet s, rfl,
      runInstrs_cons_eq_next.2 ⟨_, exec_tReset s, runInstrs_cons_eq_next.2 ⟨_, htda, rfl⟩⟩, rfl, rfl⟩

end Sys2Proof.Machine
end

section
/-! The operations both devices have (R68, R94, R103, R151 to R153, R180, R181), named once for either device, so that
what holds of both is said once. -/

namespace Sys2Proof

/-- The operations of one device that the other has too: those of its strobes (R68), and `SET_INT`. -/
structure CommonOps where
  reset : Instr
  raise : Instr
  poll : Instr
  iack : Instr
  isSync : Instr
  get : Instr
  set : Snapshot → Instr
  /-- `SET_INT` as a command. -/
  setInt : Instr
  /-- `SET_INT` through slot 0 (R83). -/
  wrSetInt : Instr

/-- The common operations of each device. -/
def Device.ops : Device → CommonOps
  | .kbd =>
    { reset := .kReset
      raise := .kRaise
      poll := .kPoll
      iack := .kIack
      isSync := .kIsSync
      get := .kGet
      set := .kSet
      setInt := .kSetInt
      wrSetInt := .kWrCmd 0x0003#16 }
  | .tda =>
    { reset := .tReset
      raise := .tRaise
      poll := .tPoll
      iack := .tIack
      isSync := .tIsSync
      get := .tGet
      set := .tSet
      setInt := .tSetInt
      wrSetInt := .tWrCmd 0x0002#16 }

section
variable (d : Device)

@[simp] theorem decode_active_rst : decode (active d .rst) = .ok d.ops.reset := by cases d <;> rfl
@[simp] theorem decode_active_intSet : decode (active d .intSet) = .ok d.ops.raise := by cases d <;> rfl
@[simp] theorem decode_active_irq : decode (active d .irq) = .ok d.ops.poll := by cases d <;> rfl
@[simp] theorem decode_active_iack : decode (active d .iack) = .ok d.ops.iack := by cases d <;> rfl
@[simp] theorem decode_active_syncDev : decode (active d .syncDev) = .ok d.ops.isSync := by cases d <;> rfl
@[simp] theorem decode_active_snapGet : decode (active d .snapGet) = .ok d.ops.get := by cases d <;> rfl

/-- `snap_set` is decoded with a snapshot of unique names (R27). -/
theorem decode_active_snapSet {snap : Snapshot} (h : snap.wellFormed = true) :
    decode (active d (.snapSet snap)) = .ok (d.ops.set snap) := by
  cases d <;> exact checkSnapshot_eq_ok.2 ⟨h, rfl⟩

end

end Sys2Proof
end

section
/-! Several strobes in one step (R157): the requests of the sampled lines run as the operations they decode to. -/

namespace Sys2Proof.Machine

/-- An operation that is not presented at the frame lines completes (R5, R122). -/
theorem exec_completes_of_decode {r : Request} {i : Instr} (h : decode r = .ok i)
    (hline : ∀ pattern, r ≠ .strobe .tda .frame pattern) (s : State) : ∃ t, exec i s = .next t := by
  obtain ⟨-, hdev⟩ := decode_wellFormed h
  match r, h, hdev with
  | .cmd .kbd _, _, hdev | .bus .kbd _ _, _, hdev | .strobe .kbd _ _, _, hdev =>
    obtain ⟨k, o, hnext⟩ := exec_of_kbd hdev s
    exact ⟨_, hnext⟩
  | .cmd .tda code, h, _ =>
    cases h
    exact ⟨_, exec_decodeTdaCommand code s⟩
  | .bus .tda pattern wdata, h, _ =>
    change decodeTdaBus pattern wdata = .ok i at h
    unfold decodeTdaBus at h
    split at h <;> cases h <;> exact ⟨_, rfl⟩
  | .strobe .tda line pattern, h, _ =>
    cases line with
    | frame => exact absurd rfl (hline pattern)
    | snapSet snap =>
      obtain ⟨-, hactive⟩ := checkSnapshot_eq_ok.1 h
      obtain ⟨-, rfl⟩ := whenActive_eq_ok.1 hactive
      exact (everyOperationIsTotal _ s).2 nofun nofun
    | rst | intSet | irq | iack | syncDev | snapGet =>
      obtain ⟨-, rfl⟩ := whenActive_eq_ok.1 h
      exact ⟨_, rfl⟩

/-- Request `r` selects operation `i`, which completes from every state. -/
def CompletesAs (r : Request) (i : Instr) : Prop :=
  decode r = .ok i ∧ ∀ s, ∃ t, exec i s = .next t

theorem active_completesAs {d : Device} {line : Strobe} {i : Instr} (h : decode (active d line) = .ok i)
    (hline : line ≠ .frame) : CompletesAs (active d line) i :=
  ⟨h, exec_completes_of_decode h fun _ heq => by cases heq; exact hline rfl⟩

theorem bus_completesAs {d : Device} {pattern : Byte} {wdata : Word} {i : Instr}
    (h : decode (.bus d pattern wdata) = .ok i) : CompletesAs (.bus d pattern wdata) i :=
  ⟨h, exec_completes_of_decode h nofun⟩

/-- Requests that complete, one after another, are the run of their operations. -/
theorem runRequests_of_completesAs {rs : List Request} {is : List Instr} (h : List.Forall₂ CompletesAs rs is)
    (s : State) : ∃ t, runInstrs is s = .next t ∧ runRequests rs s = .next t := by
  induction h generalizing s with
  | nil => exact ⟨s, rfl, rfl⟩
  | cons hri _ ih =>
    obtain ⟨hdecode, hcompletes⟩ := hri
    obtain ⟨u, hu⟩ := hcompletes s
    obtain ⟨t, his, hrs⟩ := ih u
    have hr := (runRequest_of_decode hdecode s).trans hu
    exact ⟨t, runInstrs_cons_eq_next.2 ⟨u, hu, his⟩, runRequests_cons_eq_next.2 ⟨u, hr, hrs⟩⟩

theorem ifActive_completesAs {r : Request} {i : Instr} (on : Bool) (h : CompletesAs r i) :
    List.Forall₂ CompletesAs (ifActive on r) (if on then [i] else []) := by
  cases on
  · exact .nil
  · exact .cons h .nil

/-- The operations of R157's reads, on the lines `p`; `rd` is the bus read's. -/
def readOps (d : Device) (p : PortLines) (rd : Instr) : List Instr :=
  (if p.snapGet then [d.ops.get] else []) ++ (if p.busEn && !p.busWe then [rd] else [])
    ++ (if p.irqRead then [d.ops.poll] else []) ++ (if p.syncRead then [d.ops.isSync] else [])

/-- The operations of R157's writes, on the lines `p`; `snap` is the snapshot presented and `wr` the bus write's
operation. -/
def writeOps (d : Device) (p : PortLines) (snap : Snapshot) (wr : Instr) : List Instr :=
  if p.rst then [d.ops.reset]
  else (if p.snapSet = none then [] else [d.ops.set snap]) ++ (if p.busEn && p.busWe then [wr] else [])
    ++ (if p.iack then [d.ops.iack] else []) ++ (if p.intSet then [d.ops.raise] else [])

section
variable {d : Device} {p : PortLines}

theorem sampledReads_completesAs {rd : Instr} (hrd : decode (busRead d p.busSlot) = .ok rd) :
    List.Forall₂ CompletesAs (sampledReads d p) (readOps d p rd) := by
  have hget := ifActive_completesAs p.snapGet (active_completesAs (decode_active_snapGet d) nofun)
  have hbus := ifActive_completesAs (p.busEn && !p.busWe) (bus_completesAs hrd)
  have hpoll := ifActive_completesAs p.irqRead (active_completesAs (decode_active_irq d) nofun)
  have hsync := ifActive_completesAs p.syncRead (active_completesAs (decode_active_syncDev d) nofun)
  exact List.rel_append (List.rel_append (List.rel_append hget hbus) hpoll) hsync

theorem snapSetRequests_completesAs {snap : Snapshot} (hwf : snap.wellFormed = true)
    (hsnap : p.snapSet = none ∨ p.snapSet = some snap) :
    List.Forall₂ CompletesAs (snapSetRequests d p.snapSet) (if p.snapSet = none then [] else [d.ops.set snap]) := by
  rcases hsnap with h | h <;> rw [h]
  · exact .nil
  · exact .cons (active_completesAs (decode_active_snapSet d hwf) nofun) .nil

theorem sampledWrites_completesAs {snap : Snapshot} {wr : Instr} (hwf : snap.wellFormed = true)
    (hsnap : p.snapSet = none ∨ p.snapSet = some snap)
    (hwr : decode (busWrite d p.busSlot p.busWdata) = .ok wr) :
    List.Forall₂ CompletesAs (sampledWrites d p) (writeOps d p snap wr) := by
  unfold sampledWrites writeOps
  split
  · exact .cons (active_completesAs (decode_active_rst d) nofun) .nil
  · have hset := snapSetRequests_completesAs (d := d) hwf hsnap
    have hbus := ifActive_completesAs (p.busEn && p.busWe) (bus_completesAs hwr)
    have hiack := ifActive_completesAs p.iack (active_completesAs (decode_active_iack d) nofun)
    have hraise := ifActive_completesAs p.intSet (active_completesAs (decode_active_intSet d) nofun)
    exact List.rel_append (List.rel_append (List.rel_append hset hbus) hiack) hraise

/-- A sampled step is the run of its operations, and then its frame: none of the operations before the frame stops. -/
theorem runSample_eq_frame_after_ops {snap : Snapshot} {rd wr : Instr} (hwf : snap.wellFormed = true)
    (hsnap : p.snapSet = none ∨ p.snapSet = some snap) (hrd : decode (busRead d p.busSlot) = .ok rd)
    (hwr : decode (busWrite d p.busSlot p.busWdata) = .ok wr) (s : State) :
    ∃ t, runInstrs (readOps d p rd ++ writeOps d p snap wr) s = .next t
      ∧ runSample d p s = runSampledFrame (sampledFrame d p) t := by
  have hops := List.rel_append (sampledReads_completesAs hrd) (sampledWrites_completesAs hwf hsnap hwr)
  obtain ⟨t, hrun, hrequests⟩ := runRequests_of_completesAs hops s
  refine ⟨t, hrun, ?_⟩
  rcases runSample_cases d p s with ⟨u, hu, h⟩ | ⟨hstop, -⟩
  · cases hu.symm.trans hrequests
    exact h
  · exact absurd hrequests (hstop t)

/-- A step whose next move samples lines `p`, with the bus write's pattern as the sum R64 has it. -/
theorem step_eq_frame_after_ops {s : State} {rest : List Input} (hinputs : s.inputs = .sample d p :: rest)
    {snap : Snapshot} {rd wr : Instr} (hwf : snap.wellFormed = true)
    (hsnap : p.snapSet = none ∨ p.snapSet = some snap)
    (hrd : decode (.bus d (p.busSlot.setWidth 8) 0#16) = .ok rd)
    (hwr : decode (.bus d (8#8 + p.busSlot.setWidth 8) p.busWdata) = .ok wr) :
    ∃ t, runInstrs (readOps d p rd ++ writeOps d p snap wr) (s.setInputs rest) = .next t
      ∧ step s = runSampledFrame (sampledFrame d p) t := by
  rw [← busWrite_eq_bus_add] at hwr
  rw [step_of_inputs hinputs]
  exact runSample_eq_frame_after_ops hwf hsnap hrd hwr (s.setInputs rest)

/-- Without `frame_req`, or after a `Reset`, a sampled step has no frame (R157). -/
theorem sampledFrame_tda_of_none (h : p.rst = true ∨ p.frameReq = false) : sampledFrame .tda p = none := by
  rcases h with h | h <;> simp [sampledFrame, h]

theorem sampledFrame_tda_of_some (hrst : p.rst = false) (hreq : p.frameReq = true) :
    sampledFrame .tda p = some (if p.frameSwap then .tFrameSwap else .tFrame) := by
  simp [sampledFrame, hrst, hreq]

end

theorem runSampledFrame_of_next {i : Instr} {s t : State} (h : exec i s = .next t) :
    runSampledFrame (some i) s = .next t := by
  simp only [runSampledFrame, h]

theorem runSampledFrame_of_refused {i : Instr} {s : State} {why : Refusal} (h : exec i s = .refused why) :
    runSampledFrame (some i) s = .next s := by
  simp only [runSampledFrame, h]

/-- Settles O9: the reads and writes complete as a run; the keyboard has no frame, and the TDA's comes after them. -/
theorem sampledStrobesActInOrder : Obligations.SampledStrobesActInOrder := by
  intro s p rest snap hwf hsnap
  constructor
  · intro rd wr hinputs hrd hwr
    obtain ⟨t, hrun, hstep⟩ := step_eq_frame_after_ops hinputs hwf hsnap hrd hwr
    exact ⟨t, hrun, hstep⟩
  · intro rd wr hinputs hrd hwr
    obtain ⟨t, hrun, hstep⟩ := step_eq_frame_after_ops hinputs hwf hsnap hrd hwr
    refine ⟨t, hrun, fun hnoFrame => ?_, fun hrst hreq => ?_⟩
    · rw [hstep, sampledFrame_tda_of_none hnoFrame]
      rfl
    · rw [hstep, sampledFrame_tda_of_some hrst hreq]
      exact ⟨fun u => runSampledFrame_of_next, fun why => runSampledFrame_of_refused⟩

end Sys2Proof.Machine
end

section
/-! What an operation does to a latch (R150 to R156), said once for both devices. -/

namespace Sys2Proof.Machine

/-- How operation `i` takes the latch of device `d` from `l` to another. -/
inductive LatchEffect (d : Device) (i : Instr) (l : Latch) : Latch → Prop where
  | unchanged : LatchEffect d i l l
  | setInt {msg : Word} (hi : i = d.ops.setInt ∨ i = d.ops.wrSetInt) : LatchEffect d i l (l.withMessage msg)
  | raise (hi : i = d.ops.raise) : LatchEffect d i l l.raised
  | acknowledge (hi : i = d.ops.iack) : LatchEffect d i l l.acknowledged
  | reset (hi : i = d.ops.reset) : LatchEffect d i l Latch.cleared
  | restore {snap : Snapshot} {l' : Latch} (hi : i = d.ops.set snap) : LatchEffect d i l l'

theorem KbdEffect.latchEffect {ps : Params} {k k' : Keyboard} {i : Instr} (h : KbdEffect ps k i k') :
    LatchEffect .kbd i k.latch k'.latch := by
  cases h with
  | setInt hi => exact .setInt hi
  | raise hi => exact .raise hi
  | acknowledge hi => exact .acknowledge hi
  | reset hi => exact .reset hi
  | restore hi => exact .restore hi
  | _ => exact .unchanged

theorem TdaEffect.latchEffect {ps : Params} {t t' : Tda} {i : Instr} (h : TdaEffect ps t i t') :
    LatchEffect .tda i t.latch t'.latch := by
  cases h with
  | setInt hi => exact .setInt hi
  | raise hi => exact .raise hi
  | acknowledge hi => exact .acknowledge hi
  | reset hi => exact .reset hi
  | restore hi => exact .restore hi
  | _ => exact .unchanged

/-- Everything an operation can do to the latch of either device. -/
theorem exec_latchEffect {i : Instr} {s s' : State} (hnext : exec i s = .next s') (d : Device) :
    LatchEffect d i (s.latch d) (s'.latch d) := by
  cases d with
  | kbd => exact (exec_kbdEffect hnext).latchEffect
  | tda => exact (exec_tdaEffect hnext).latchEffect

section
variable {d : Device} {i : Instr} {l l' : Latch}

/-- R151: what sets the flag. -/
theorem LatchEffect.pending_setters (h : LatchEffect d i l l') (hold : l.pending = false) (hnew : l'.pending = true) :
    i = d.ops.raise ∨ ∃ snap : Snapshot, i = d.ops.set snap := by
  cases h with
  | raise hi => exact .inl hi
  | restore hi => exact .inr ⟨_, hi⟩
  | unchanged | setInt => cases hold.symm.trans hnew
  | acknowledge | reset => cases hnew

/-- R153: what clears the flag. -/
theorem LatchEffect.pending_clearers (h : LatchEffect d i l l') (hold : l.pending = true) (hnew : l'.pending = false) :
    i = d.ops.iack ∨ i = d.ops.reset ∨ ∃ snap : Snapshot, i = d.ops.set snap := by
  cases h with
  | acknowledge hi => exact .inl hi
  | reset hi => exact .inr (.inl hi)
  | restore hi => exact .inr (.inr ⟨_, hi⟩)
  | unchanged | setInt => cases hold.symm.trans hnew
  | raise => cases hnew

/-- R154: what writes the message. -/
theorem LatchEffect.msg_writers (h : LatchEffect d i l l') (hmsg : l'.msg ≠ l.msg) :
    i = d.ops.setInt ∨ i = d.ops.wrSetInt ∨ i = d.ops.reset ∨ ∃ snap : Snapshot, i = d.ops.set snap := by
  cases h with
  | setInt hi => exact hi.imp_right .inl
  | reset hi => exact .inr (.inr (.inl hi))
  | restore hi => exact .inr (.inr (.inr ⟨_, hi⟩))
  | unchanged | raise | acknowledge => exact absurd rfl hmsg

/-- R156: a zero message stays zero but for `SET_INT` and `SetState`; `Reset` writes it to zero again. -/
theorem LatchEffect.keeps_zero_msg (h : LatchEffect d i l l') (hsetInt : i ≠ d.ops.setInt)
    (hwrSetInt : i ≠ d.ops.wrSetInt) (hset : ∀ snap : Snapshot, i ≠ d.ops.set snap) (hmsg : l.msg = 0#16) :
    l'.msg = 0#16 := by
  cases h with
  | setInt hi => exact absurd hi (not_or.2 ⟨hsetInt, hwrSetInt⟩)
  | restore hi => exact absurd hi (hset _)
  | reset => rfl
  | unchanged | raise | acknowledge => exact hmsg

end

end Sys2Proof.Machine
end

section
/-! The interrupt operations on the whole machine (R151 to R156, R160). -/

namespace Sys2Proof.Machine

theorem exec_kRaise (s : State) : exec .kRaise s = .next (s.setKbd { s.k with latch := s.k.latch.raised }) :=
  rfl

theorem exec_tRaise (s : State) : exec .tRaise s = .next (s.setTda { s.t with latch := s.t.latch.raised }) :=
  rfl

theorem exec_kPoll (s : State) :
    exec .kPoll s = .next (s.setKOut (s.kOut.polled s.k.latch (Config.freeKbdMessage s.kOut.draws))) :=
  rfl

theorem exec_tPoll (s : State) :
    exec .tPoll s = .next (s.setTOut (s.tOut.polled s.t.latch (Config.freeTdaMessage s.tOut.draws))) :=
  rfl

theorem exec_kIack (s : State) : exec .kIack s = .next (s.setKbd { s.k with latch := s.k.latch.acknowledged }) :=
  rfl

theorem exec_tIack (s : State) : exec .tIack s = .next (s.setTda { s.t with latch := s.t.latch.acknowledged }) :=
  rfl

/-- Settles O40: of the effects on a latch, only the raise and the restore can set the flag. -/
theorem raiseSetsPending : Obligations.RaiseSetsPending := by
  refine ⟨decode_active_intSet .kbd, decode_active_intSet .tda, fun s => ⟨exec_kRaise s, exec_tRaise s⟩, ?_⟩
  intro i s s' hnext
  exact ⟨(exec_latchEffect hnext .kbd).pending_setters, (exec_latchEffect hnext .tda).pending_setters⟩

/-- Settles O42: of the effects on a latch, only the acknowledge, the reset and the restore can clear the flag. -/
theorem iackClearsPending : Obligations.IackClearsPending := by
  refine ⟨decode_active_iack .kbd, decode_active_iack .tda, fun s => ⟨exec_kIack s, exec_tIack s⟩, ?_⟩
  intro i s s' hnext
  exact ⟨(exec_latchEffect hnext .kbd).pending_clearers, (exec_latchEffect hnext .tda).pending_clearers⟩

/-- Settles O44: the writers of a message are among the effects on a latch; what `Reset` and `IACK` leave in it is in
their own equations. -/
theorem onlySetIntResetSetWriteMessages : Obligations.OnlySetIntResetSetWriteMessages := by
  intro i s s' hnext
  refine ⟨(exec_latchEffect hnext .kbd).msg_writers, (exec_latchEffect hnext .tda).msg_writers, ?_, ?_, ?_, ?_⟩
  · rintro rfl
    cases (exec_kReset s).symm.trans hnext
    rfl
  · rintro rfl
    cases (exec_tReset s).symm.trans hnext
    rfl
  · rintro rfl
    cases (exec_kIack s).symm.trans hnext
    rfl
  · rintro rfl
    cases (exec_tIack s).symm.trans hnext
    rfl

/-- A latch with a zero message is masked, whatever its flag (R152, R156). -/
theorem irqLine_of_zero_msg {d : Device} {s : State} (h : (s.latch d).msg = 0#16) : irqLine d s = false := by
  rw [irqLine, ← Bool.not_eq_true, Latch.reports_iff]
  exact fun ⟨_, hmsg⟩ => hmsg h

/-- A run without `SET_INT` and `SetState` of a device keeps its zero message, and so keeps it masked (R156). -/
theorem runInstrs_keeps_masked (d : Device) {is : List Instr} {s s' : State} (hrun : runInstrs is s = .next s')
    (hmsg : (s.latch d).msg = 0#16)
    (hops : ∀ i ∈ is, i ≠ d.ops.setInt ∧ i ≠ d.ops.wrSetInt ∧ ∀ snap : Snapshot, i ≠ d.ops.set snap) :
    (s'.latch d).msg = 0#16 ∧ irqLine d s' = false := by
  have hkept : (s'.latch d).msg = 0#16 := by
    refine runInstrs_keeps (P := fun s => (s.latch d).msg = 0#16) (fun i hi s s' hnext => ?_) hrun hmsg
    obtain ⟨hsetInt, hwrSetInt, hset⟩ := hops i hi
    exact (exec_latchEffect hnext d).keeps_zero_msg hsetInt hwrSetInt hset
  exact ⟨hkept, irqLine_of_zero_msg hkept⟩

/-- Settles O45, for each device. -/
theorem maskedUntilSetInt : Obligations.MaskedUntilSetInt := by
  intro is s s' hrun
  exact ⟨runInstrs_keeps_masked .kbd hrun, runInstrs_keeps_masked .tda hrun⟩

section
variable {l : Latch}

theorem PortOut.polled_of_reporting (o : PortOut) (free : Word) (h : l.pending = true ∧ l.msg ≠ 0#16) :
    o.polled l free = { o with irq := some (true, l.msg) } := by
  rcases o.polled_cases l free with ⟨-, hpoll⟩ | ⟨hsilent, -⟩
  · exact hpoll
  · cases hsilent.symm.trans (l.reports_iff.2 h)

theorem PortOut.polled_of_silent (o : PortOut) (free : Word) (h : ¬ (l.pending = true ∧ l.msg ≠ 0#16)) :
    o.polled l free = { o with irq := some (false, free), draws := o.draws + 1 } := by
  rcases o.polled_cases l free with ⟨hreports, -⟩ | ⟨-, hpoll⟩
  · exact absurd (l.reports_iff.1 hreports) h
  · exact hpoll

end

/-- Settles O41: a poll replaces the results by what the latch reports, and the lines are the latch's. -/
theorem doesInterruptReportsTheLatch : Obligations.DoesInterruptReportsTheLatch := by
  intro s
  rw [exec_kPoll, exec_tPoll]
  refine ⟨fun h => ?_, fun h => ⟨Config.freeKbdMessage s.kOut.draws, ?_⟩, fun h => ?_,
    fun h => ⟨Config.freeTdaMessage s.tOut.draws, ?_⟩, s.k.latch.reports_iff, s.t.latch.reports_iff, rfl, rfl⟩
  · rw [PortOut.polled_of_reporting _ _ h]
    rfl
  · rw [PortOut.polled_of_silent _ _ h]
    rfl
  · rw [PortOut.polled_of_reporting _ _ h]
    rfl
  · rw [PortOut.polled_of_silent _ _ h]
    rfl

/-- One acknowledge clears what two raises set, since the flag is one bit (R160, R187). -/
theorem Latch.raised_raised_acknowledged (l : Latch) :
    l.raised.raised.acknowledged.pending = false ∧ l.raised.raised.acknowledged.msg = l.msg :=
  ⟨rfl, rfl⟩

/-- Settles O43: the poll leaves the device alone, so its latch is raised twice and acknowledged once. -/
theorem secondEventIsAbsorbedByIack : Obligations.SecondEventIsAbsorbedByIack :=
  fun s => ⟨⟨_, rfl, s.k.latch.raised_raised_acknowledged⟩, _, rfl, s.t.latch.raised_raised_acknowledged⟩

end Sys2Proof.Machine
end

section
/-! What can fault (R158): of the moves of the environment, only a CPU write outside RAM. -/

namespace Sys2Proof.Machine

theorem runRequest_ne_fault (r : Request) (s : State) (f : Fault) : runRequest r s ≠ .fault f := by
  rcases runRequest_cases r s with ⟨i, -, h⟩ | ⟨why, -, h⟩ <;> rw [h]
  · exact (everyOperationIsTotal i s).1 f
  · nofun

theorem runRequests_ne_fault (rs : List Request) (s : State) (f : Fault) : runRequests rs s ≠ .fault f := by
  induction rs generalizing s with
  | nil => nofun
  | cons r rs ih =>
    rw [runRequests]
    cases h : runRequest r s with
    | next s' => exact ih s'
    | fault g => exact absurd h (runRequest_ne_fault r s g)
    | refused why => nofun

theorem runSampledFrame_ne_fault (frame : Option Instr) (s : State) (f : Fault) :
    runSampledFrame frame s ≠ .fault f := by
  rcases runSampledFrame_cases frame s with ⟨-, h⟩ | ⟨-, -, -, -, h⟩ | ⟨i, -, -, h⟩ <;> rw [h]
  · nofun
  · nofun
  · exact (everyOperationIsTotal i s).1 f

theorem runSample_ne_fault (d : Device) (p : PortLines) (s : State) (f : Fault) : runSample d p s ≠ .fault f := by
  rcases runSample_cases d p s with ⟨t, -, h⟩ | ⟨-, h⟩ <;> rw [h]
  · exact runSampledFrame_ne_fault _ t f
  · exact runRequests_ne_fault _ s f

theorem runBusAccess_ne_fault (addr : Nat) (we : Bool) (wdata : Word) (s : State) (f : Fault) :
    runBusAccess addr we wdata s ≠ .fault f := by
  rcases runBusAccess_cases addr we wdata s with ⟨-, h⟩ | ⟨d, slot, -, h⟩ | ⟨_, _, _, _, -, -, -, h⟩ <;> rw [h]
  · nofun
  · exact runRequest_ne_fault _ s f
  · nofun

/-- A move that faults is a CPU write outside RAM. -/
theorem cpuWrite_of_runInput_fault {input : Input} {s : State} {f : Fault} (h : runInput input s = .fault f) :
    ∃ a v, input = .cpuWrite a v ∧ s.params.ramSize ≤ a := by
  cases input with
  | request r => exact absurd h (runRequest_ne_fault r s f)
  | sample d p => exact absurd h (runSample_ne_fault d p s f)
  | busAccess addr we wdata => exact absurd h (runBusAccess_ne_fault addr we wdata s f)
  | cpuWrite a v =>
    rcases cpuWrite_cases a v s with ⟨-, hnext⟩ | ⟨houtside, -⟩
    · cases hnext.symm.trans h
    · exact ⟨a, v, rfl, houtside⟩

/-- Settles O57: an idle step does not fault, and a next move that does is the CPU write the hypothesis puts in RAM. -/
theorem onlyCpuWritesCanFault : Obligations.OnlyCpuWritesCanFault := by
  intro s hinside f hfault
  rcases step_cases s with ⟨-, h⟩ | ⟨input, rest, hinputs, h⟩ <;> rw [h] at hfault
  · cases hfault
  · obtain ⟨a, v, rfl, houtside⟩ := cpuWrite_of_runInput_fault hfault
    exact absurd (hinside a v rest hinputs) houtside.not_gt

end Sys2Proof.Machine
end

section
/-! `Reset` of each device (R180, R181). -/

namespace Sys2Proof.Machine

/-- Settles O46: the active `rst` line decodes to each device's `Reset`, which puts the cleared device in place of the
old one and leaves the rest of the state. -/
theorem resetClearsItsDevice : Obligations.ResetClearsItsDevice := by
  refine ⟨decode_active_rst .kbd, decode_active_rst .tda, fun s => ⟨?kbd, ?tda⟩⟩
  case kbd => exact exec_kReset s
  case tda => exact exec_tReset s

end Sys2Proof.Machine
end

section
/-! A scheduled request (log 1): when the decoder refuses it (log 8), and when it is that of an opcode-table word
(log 7). -/

namespace Sys2Proof.Machine

theorem runRequest_of_decode_error {r : Request} {why : DecodeError} (h : decode r = .error why) (s : State) :
    runRequest r s = .refused (.undecodable why) := by
  simp only [runRequest, h]

/-- Settles O3: the step is the run of its request, which the decoder refuses whatever the state. -/
theorem undecodableRequestIsRefused : Obligations.UndecodableRequestIsRefused := by
  intro s r rest why hinputs hdecode
  calc step s = runRequest r (s.setInputs rest) := step_of_inputs hinputs
    _ = .refused (.undecodable why) := runRequest_of_decode_error hdecode _

/-- The instruction of an opcode-table word is what its request decodes to. -/
theorem decodeTableWord_eq_some {nbits w : Nat} {i : Instr} :
    decodeTableWord nbits w = some i ↔ ∃ r, tableRequest nbits w = some r ∧ decode r = .ok i := by
  unfold decodeTableWord decodeTableWordFor tableRequest
  cases tableRequestFor .kbd nbits w with
  | none => simp
  | some r => cases hdecode : decode r <;> simp [hdecode]

theorem State.withFetchWord_of_tableRequest {nbits w : Nat} {r : Request} (h : tableRequest nbits w = some r)
    (s : State) : s.withFetchWord nbits w = s.setInputs (.request r :: s.inputs) := by
  simp only [State.withFetchWord, h]

/-- Taking a move off the schedule undoes putting it there. -/
@[simp] theorem State.setInputs_setInputs_inputs (s : State) (is : List Input) :
    (s.setInputs is).setInputs s.inputs = s := rfl

/-- Settles O4: the word's request is put first on the schedule, and the step that takes it off again runs what it
decodes to in the state as it was. -/
theorem fetchedTableWordRuns : Obligations.FetchedTableWordRuns := by
  intro s nbits w i hword
  obtain ⟨r, hrequest, hdecode⟩ := decodeTableWord_eq_some.1 hword
  have hinputs : (s.withFetchWord nbits w).inputs = .request r :: s.inputs := by
    rw [State.withFetchWord_of_tableRequest hrequest, State.setInputs_inputs]
  calc step (s.withFetchWord nbits w)
      = runRequest r ((s.withFetchWord nbits w).setInputs s.inputs) := step_of_inputs hinputs
    _ = runRequest r s := by rw [State.withFetchWord_of_tableRequest hrequest, State.setInputs_setInputs_inputs]
    _ = exec i s := runRequest_of_decode hdecode s

end Sys2Proof.Machine
end
